-- ==== Sys2Proof/Word.lean ====
section
/-!
DEFINITION. The word types of the zip8 CHIP-8 core (00_scope.md R6 to R8): every value is unsigned, bit 0 is the
least significant bit.
-/

namespace Sys2Proof

/-- An 8-bit value: a general register, a timer, a memory cell, a flag-store byte, a framebuffer byte (R6, R21). -/
abbrev Byte := BitVec 8

/-- A 12-bit address: the program counter, the index register, a saved return address (R23, R24, R25).
Arithmetic on it wraps modulo 4096, as R51 wants. -/
abbrev Addr := BitVec 12

/-- A 16-bit instruction word (R70). -/
abbrev InstrWord := BitVec 16

/-- The 16-bit key mask: bit `k` is 1 when key `k` is down (R32). -/
abbrev KeyMask := BitVec 16

/-- The number of a general register `V[0]` to `V[15]`, or of a key 0 to 15 (R21, R15). -/
abbrev Reg := Fin 16

/-- The register that doubles as the carry, borrow and collision flag (R22). -/
abbrev vf : Reg := 15

/-- The packed 64-bit value of the flag store on the host's side (R30, R171). -/
abbrev PackedFlags := BitVec 64

end Sys2Proof
end

