-- ==== Sys2Proof/Config.lean ====
section
/-!
DEFINITION. The open parameters of 00_scope.md R7: what an implementation fixes, and the free values.
The parameters that are plain data form the record `Cfg`, which State carries and no operation changes, so that a
statement about every state is a statement about every configuration (log entry 1). The generator's states and its
functions are opaque constants: nothing in Lean can evaluate them (R34, D22, log entry 2).
-/

namespace Sys2Proof

/-- Which register the shifts `8XY6` and `8XYE` take their source from: the parameter SHIFT_SRC (R7, D3). -/
inductive ShiftSrc where
  | vx
  | vy
deriving DecidableEq, Repr, Inhabited

/-- The byte order of the packed value at the `flags_q` output: the parameter FLAGS_READ_ORDER (R7, D21). -/
inductive FlagsReadOrder where
  | be
  | le
deriving DecidableEq, Repr, Inhabited

/-- The parameter ERR_CODE (R7, R180, D18): the small integer that stands for each error at the `err` port. -/
structure ErrCodes where
  /-- the value that goes with `status = ok` -/
  noError : Nat
  illegalOpcode : Nat
  stackOverflow : Nat
  badReturn : Nat
  programTooLong : Nat
  flagOverflow : Nat
deriving DecidableEq, Repr, Inhabited

/-- A seed, the input of `init`, as an unsigned number with its width. Its type is an open parameter (R7, D22), so
seeds of every width are here; `Seed.wellFormed` picks those of the type a configuration names. Log entry 3. -/
structure Seed where
  bits : Nat
  value : BitVec bits
deriving DecidableEq, Repr, Inhabited

/-- The configuration record of R7, less the generator. -/
structure Cfg where
  /-- FONT_BASE: where `init` puts the font and what `FX29` counts from (D7) -/
  fontBase : Addr
  /-- FONT_DATA: sixteen glyphs of five bytes (R36, D7) -/
  fontData : Vector Byte 80
  shiftSrc : ShiftSrc
  flagsReadOrder : FlagsReadOrder
  /-- the parameter Seed, the type of the seed input: unsigned numbers of this many bits (D22) -/
  seedBits : Nat
  errCode : ErrCodes
deriving DecidableEq, Repr, Inhabited

namespace Config

/-- Which natural numbers code a state of the generator. A free value. -/
opaque isRngCode : Nat → Bool

/-- RngState of R34, the uninterpreted type of the generator's states: one state, and those that the codes name. How
many there are, finitely or infinitely many, nothing in Lean can tell. Log entry 2. -/
abbrev RngState := Option { code : Nat // isRngCode code = true }

/-- RNG_INIT of R34: the generator's state for a seed. A free value. -/
opaque rngInit : Seed → RngState

/-- RNG_STEP of R34: the next state and the byte delivered. A free value. -/
opaque rngStep : RngState → RngState × Byte

end Config

end Sys2Proof
end

