-- ==== Sys2Proof/Syntax.lean ====
section
/-!
DEFINITION. The 36 instructions of 30_encoding.md R76, one constructor a row of spec/opcode_table.json, named by the
spec's mnemonics (R81). Operands stand in the pattern's field order.
-/

namespace Sys2Proof

/-- An instruction. A register number is a `Reg`, an immediate `nn` a byte, an address `nnn` a 12-bit address; the
row count `n` of `DXYN` is a count, and `Instr.wellFormed` bounds it (R72, R73). -/
inductive Instr where
  /-- `00E0` clear the display -/
  | cls
  /-- `00EE` return from subroutine -/
  | ret
  /-- `1NNN` jump -/
  | jp (nnn : Addr)
  /-- `2NNN` call subroutine -/
  | call (nnn : Addr)
  /-- `3XNN` skip if register equals immediate -/
  | seqi (x : Reg) (nn : Byte)
  /-- `4XNN` skip if register differs from immediate -/
  | snei (x : Reg) (nn : Byte)
  /-- `5XY0` skip if registers equal -/
  | seq (x y : Reg)
  /-- `6XNN` load immediate -/
  | ldi (x : Reg) (nn : Byte)
  /-- `7XNN` add immediate -/
  | addi (x : Reg) (nn : Byte)
  /-- `8XY0` assign -/
  | mov (x y : Reg)
  /-- `8XY1` bitwise OR -/
  | or (x y : Reg)
  /-- `8XY2` bitwise AND -/
  | and (x y : Reg)
  /-- `8XY3` bitwise exclusive OR -/
  | xor (x y : Reg)
  /-- `8XY4` add with carry out -/
  | add (x y : Reg)
  /-- `8XY5` subtract -/
  | sub (x y : Reg)
  /-- `8XY6` shift right by one -/
  | shr (x y : Reg)
  /-- `8XY7` reverse subtract -/
  | subn (x y : Reg)
  /-- `8XYE` shift left by one -/
  | shl (x y : Reg)
  /-- `9XY0` skip if registers differ -/
  | sne (x y : Reg)
  /-- `ANNN` set the index register -/
  | seti (nnn : Addr)
  /-- `BNNN` jump with offset `V0` -/
  | jpv0 (nnn : Addr)
  /-- `CXNN` random byte under mask -/
  | rnd (x : Reg) (nn : Byte)
  /-- `DXYN` draw an `n`-row sprite -/
  | drw (x y : Reg) (n : Nat)
  /-- `EX9E` skip if key pressed -/
  | skp (x : Reg)
  /-- `EXA1` skip if key not pressed -/
  | sknp (x : Reg)
  /-- `FX07` read the delay timer -/
  | getdt (x : Reg)
  /-- `FX0A` wait for a key press -/
  | waitk (x : Reg)
  /-- `FX15` set the delay timer -/
  | setdt (x : Reg)
  /-- `FX18` set the sound timer -/
  | setst (x : Reg)
  /-- `FX1E` add register to index -/
  | addix (x : Reg)
  /-- `FX29` point the index at a font glyph -/
  | font (x : Reg)
  /-- `FX33` store decimal digits -/
  | bcd (x : Reg)
  /-- `FX55` store `V0` to `VX` -/
  | store (x : Reg)
  /-- `FX65` load `V0` to `VX` -/
  | load (x : Reg)
  /-- `FX75` save `V0` to `VX` into the flag store -/
  | savef (x : Reg)
  /-- `FX85` load `V0` to `VX` from the flag store -/
  | loadf (x : Reg)
deriving DecidableEq, Repr, Inhabited

end Sys2Proof
end

