-- ==== Sys2Proof/WellFormed.lean ====
section
/-!
DEFINITION. The checks on raw terms: an instruction, a configuration and a seed. (The one check of a program image, its
length, is an effect of `init`: Machine/HostOps.lean.)
-/

namespace Sys2Proof

/-- Every operand but the row count is well-formed by its type; the row count is a nibble, 0 to 15 (R72, R73).
`FX75` and `FX85` with `x > 7` are legal instructions that fail when executed (R79, R157), so no check here. -/
def Instr.wellFormed : Instr → Bool
  | .drw _ _ n => decide (n ≤ 15)
  | _ => true

/-- The constraint on FONT_BASE of R7: the font lies below the program area. -/
def Cfg.wellFormed (c : Cfg) : Bool :=
  decide (c.fontBase.toNat + 80 ≤ 0x200)

/-- A seed is of the configuration's seed type (R7). The generator's functions are free on every seed, so no meaning
checks this. -/
def Seed.wellFormed (c : Cfg) (seed : Seed) : Bool :=
  decide (seed.bits = c.seedBits)

end Sys2Proof
end

