-- ==== Sys2Proof/Decode.lean ====
section
/-!
DEFINITION. Decoding and encoding (30_encoding.md R70 to R83): the fields of a word, the decoder of R74, the encoder of
R83, and the opcode table of R76 as data.
-/

namespace Sys2Proof

/-! ### The fields of an instruction word (R72) -/

/-- `op = w[15:12]`, the leading nibble. -/
def opOf (w : InstrWord) : BitVec 4 := w.extractLsb' 12 4

/-- `x = w[11:8]`, a register number. -/
def xOf (w : InstrWord) : Reg := (w.extractLsb' 8 4).toFin

/-- `y = w[7:4]`, a register number. -/
def yOf (w : InstrWord) : Reg := (w.extractLsb' 4 4).toFin

/-- `n = w[3:0]`, the trailing nibble. -/
def nOf (w : InstrWord) : BitVec 4 := w.extractLsb' 0 4

/-- `nn = w[7:0]`, the low byte. -/
def nnOf (w : InstrWord) : Byte := w.extractLsb' 0 8

/-- `nnn = w[11:0]`, an address. -/
def nnnOf (w : InstrWord) : Addr := w.extractLsb' 0 12

/-! ### The decoder (R74) -/

/-- Family `0x0`: the whole word is compared. -/
def decodeFamily0 (w : InstrWord) : Option Instr :=
  if w = 0x00E0 then some .cls
  else if w = 0x00EE then some .ret
  else none

/-- Family `0x8`: the trailing nibble selects the operation (R77, D2). -/
def decodeFamily8 (w : InstrWord) : Option Instr :=
  if nOf w = 0x0 then some (.mov (xOf w) (yOf w))
  else if nOf w = 0x1 then some (.or (xOf w) (yOf w))
  else if nOf w = 0x2 then some (.and (xOf w) (yOf w))
  else if nOf w = 0x3 then some (.xor (xOf w) (yOf w))
  else if nOf w = 0x4 then some (.add (xOf w) (yOf w))
  else if nOf w = 0x5 then some (.sub (xOf w) (yOf w))
  else if nOf w = 0x6 then some (.shr (xOf w) (yOf w))
  else if nOf w = 0x7 then some (.subn (xOf w) (yOf w))
  else if nOf w = 0xE then some (.shl (xOf w) (yOf w))
  else none

/-- Family `0xE`: the low byte selects the operation. -/
def decodeFamilyE (w : InstrWord) : Option Instr :=
  if nnOf w = 0x9E then some (.skp (xOf w))
  else if nnOf w = 0xA1 then some (.sknp (xOf w))
  else none

/-- Family `0xF`: the low byte selects the operation. -/
def decodeFamilyF (w : InstrWord) : Option Instr :=
  if nnOf w = 0x07 then some (.getdt (xOf w))
  else if nnOf w = 0x0A then some (.waitk (xOf w))
  else if nnOf w = 0x15 then some (.setdt (xOf w))
  else if nnOf w = 0x18 then some (.setst (xOf w))
  else if nnOf w = 0x1E then some (.addix (xOf w))
  else if nnOf w = 0x29 then some (.font (xOf w))
  else if nnOf w = 0x33 then some (.bcd (xOf w))
  else if nnOf w = 0x55 then some (.store (xOf w))
  else if nnOf w = 0x65 then some (.load (xOf w))
  else if nnOf w = 0x75 then some (.savef (xOf w))
  else if nnOf w = 0x85 then some (.loadf (xOf w))
  else none

/-- The decode procedure of R74: the family by the leading nibble, then the second level of that family. `none` is the
illegal word of R78. It depends on the 16 bits of the word alone. -/
def decode (w : InstrWord) : Option Instr :=
  if opOf w = 0x0 then decodeFamily0 w
  else if opOf w = 0x1 then some (.jp (nnnOf w))
  else if opOf w = 0x2 then some (.call (nnnOf w))
  else if opOf w = 0x3 then some (.seqi (xOf w) (nnOf w))
  else if opOf w = 0x4 then some (.snei (xOf w) (nnOf w))
  else if opOf w = 0x5 then (if nOf w = 0 then some (.seq (xOf w) (yOf w)) else none)
  else if opOf w = 0x6 then some (.ldi (xOf w) (nnOf w))
  else if opOf w = 0x7 then some (.addi (xOf w) (nnOf w))
  else if opOf w = 0x8 then decodeFamily8 w
  else if opOf w = 0x9 then (if nOf w = 0 then some (.sne (xOf w) (yOf w)) else none)
  else if opOf w = 0xA then some (.seti (nnnOf w))
  else if opOf w = 0xB then some (.jpv0 (nnnOf w))
  else if opOf w = 0xC then some (.rnd (xOf w) (nnOf w))
  else if opOf w = 0xD then some (.drw (xOf w) (yOf w) (nOf w).toNat)
  else if opOf w = 0xE then decodeFamilyE w
  else decodeFamilyF w

/-- Why bytes are no instruction. -/
inductive DecodeError where
  /-- the word matches no row of the opcode table (R78) -/
  | illegalOpcode (w : InstrWord)
  /-- fewer than the two bytes every instruction has (R70); the machine's own fetch always has two -/
  | truncated
deriving DecidableEq, Repr

/-- The 16-bit word of two bytes as they stand in memory, the byte at the lower address first: big-endian (R53). -/
def wordOfBytes (first second : Byte) : InstrWord := first ++ second

/-- The decoder on any bytes: the instruction they begin with and the bytes after it, or the name of what is wrong. -/
def decodeBytes : List Byte → Except DecodeError (Instr × List Byte)
  | first :: second :: rest =>
    match decode (wordOfBytes first second) with
    | some i => .ok (i, rest)
    | none => .error (.illegalOpcode (wordOfBytes first second))
  | _ => .error .truncated

/-! ### The encoder (R83) -/

/-- A word from its four nibbles, the leading one first. -/
def wordOfNibbles (op x y n : Nat) : InstrWord :=
  BitVec.ofNat 16 (op * 0x1000 + x * 0x100 + y * 0x10 + n)

/-- Format NNN (R71). -/
def encodeNnn (op : Nat) (nnn : Addr) : InstrWord :=
  BitVec.ofNat 16 (op * 0x1000 + nnn.toNat)

/-- Formats XNN and XFF (R71): a register number above a low byte, which is an immediate or a function code. -/
def encodeXnn (op : Nat) (x : Reg) (nn : Byte) : InstrWord :=
  BitVec.ofNat 16 (op * 0x1000 + x.val * 0x100 + nn.toNat)

/-- The word of an instruction: the opcode and function nibbles of its pattern, `x` in bits 11:8, `y` in bits 7:4, and
`nnn`, `nn` or `n` in the low bits (R83, R76). -/
def encode : Instr → InstrWord
  | .cls => wordOfNibbles 0x0 0x0 0xE 0x0
  | .ret => wordOfNibbles 0x0 0x0 0xE 0xE
  | .jp nnn => encodeNnn 0x1 nnn
  | .call nnn => encodeNnn 0x2 nnn
  | .seqi x nn => encodeXnn 0x3 x nn
  | .snei x nn => encodeXnn 0x4 x nn
  | .seq x y => wordOfNibbles 0x5 x y 0x0
  | .ldi x nn => encodeXnn 0x6 x nn
  | .addi x nn => encodeXnn 0x7 x nn
  | .mov x y => wordOfNibbles 0x8 x y 0x0
  | .or x y => wordOfNibbles 0x8 x y 0x1
  | .and x y => wordOfNibbles 0x8 x y 0x2
  | .xor x y => wordOfNibbles 0x8 x y 0x3
  | .add x y => wordOfNibbles 0x8 x y 0x4
  | .sub x y => wordOfNibbles 0x8 x y 0x5
  | .shr x y => wordOfNibbles 0x8 x y 0x6
  | .subn x y => wordOfNibbles 0x8 x y 0x7
  | .shl x y => wordOfNibbles 0x8 x y 0xE
  | .sne x y => wordOfNibbles 0x9 x y 0x0
  | .seti nnn => encodeNnn 0xA nnn
  | .jpv0 nnn => encodeNnn 0xB nnn
  | .rnd x nn => encodeXnn 0xC x nn
  | .drw x y n => wordOfNibbles 0xD x y n
  | .skp x => encodeXnn 0xE x 0x9E
  | .sknp x => encodeXnn 0xE x 0xA1
  | .getdt x => encodeXnn 0xF x 0x07
  | .waitk x => encodeXnn 0xF x 0x0A
  | .setdt x => encodeXnn 0xF x 0x15
  | .setst x => encodeXnn 0xF x 0x18
  | .addix x => encodeXnn 0xF x 0x1E
  | .font x => encodeXnn 0xF x 0x29
  | .bcd x => encodeXnn 0xF x 0x33
  | .store x => encodeXnn 0xF x 0x55
  | .load x => encodeXnn 0xF x 0x65
  | .savef x => encodeXnn 0xF x 0x75
  | .loadf x => encodeXnn 0xF x 0x85

/-- The two bytes of an instruction as they stand in memory, the high byte first (R83, R53). -/
def encodeBytes (i : Instr) : List Byte :=
  [(encode i).extractLsb' 8 8, (encode i).extractLsb' 0 8]

/-! ### The opcode table (R76) as data -/

/-- The mnemonic of an instruction, as R76 and spec/opcode_table.json spell it. -/
def mnemonicOf : Instr → String
  | .cls => "CLS"
  | .ret => "RET"
  | .jp _ => "JP"
  | .call _ => "CALL"
  | .seqi _ _ => "SEQI"
  | .snei _ _ => "SNEI"
  | .seq _ _ => "SEQ"
  | .ldi _ _ => "LDI"
  | .addi _ _ => "ADDI"
  | .mov _ _ => "MOV"
  | .or _ _ => "OR"
  | .and _ _ => "AND"
  | .xor _ _ => "XOR"
  | .add _ _ => "ADD"
  | .sub _ _ => "SUB"
  | .shr _ _ => "SHR"
  | .subn _ _ => "SUBN"
  | .shl _ _ => "SHL"
  | .sne _ _ => "SNE"
  | .seti _ => "SETI"
  | .jpv0 _ => "JPV0"
  | .rnd _ _ => "RND"
  | .drw _ _ _ => "DRW"
  | .skp _ => "SKP"
  | .sknp _ => "SKNP"
  | .getdt _ => "GETDT"
  | .waitk _ => "WAITK"
  | .setdt _ => "SETDT"
  | .setst _ => "SETST"
  | .addix _ => "ADDIX"
  | .font _ => "FONT"
  | .bcd _ => "BCD"
  | .store _ => "STORE"
  | .load _ => "LOAD"
  | .savef _ => "SAVEF"
  | .loadf _ => "LOADF"

/-- A row of R76: a word `w` is the instruction of the row when `w AND mask = pattern`. -/
structure OpcodeRow where
  mnemonic : String
  mask : InstrWord
  pattern : InstrWord
deriving DecidableEq, Repr

/-- The rows of R76 of families `0x0` to `0x7`. -/
def opcodeRowsLow : List OpcodeRow :=
  [ ⟨"CLS", 0xFFFF, 0x00E0⟩, ⟨"RET", 0xFFFF, 0x00EE⟩, ⟨"JP", 0xF000, 0x1000⟩,
    ⟨"CALL", 0xF000, 0x2000⟩, ⟨"SEQI", 0xF000, 0x3000⟩, ⟨"SNEI", 0xF000, 0x4000⟩,
    ⟨"SEQ", 0xF00F, 0x5000⟩, ⟨"LDI", 0xF000, 0x6000⟩, ⟨"ADDI", 0xF000, 0x7000⟩ ]

/-- The rows of R76 of families `0x8` to `0xD`. -/
def opcodeRowsMiddle : List OpcodeRow :=
  [ ⟨"MOV", 0xF00F, 0x8000⟩, ⟨"OR", 0xF00F, 0x8001⟩, ⟨"AND", 0xF00F, 0x8002⟩,
    ⟨"XOR", 0xF00F, 0x8003⟩, ⟨"ADD", 0xF00F, 0x8004⟩, ⟨"SUB", 0xF00F, 0x8005⟩,
    ⟨"SHR", 0xF00F, 0x8006⟩, ⟨"SUBN", 0xF00F, 0x8007⟩, ⟨"SHL", 0xF00F, 0x800E⟩,
    ⟨"SNE", 0xF00F, 0x9000⟩, ⟨"SETI", 0xF000, 0xA000⟩, ⟨"JPV0", 0xF000, 0xB000⟩,
    ⟨"RND", 0xF000, 0xC000⟩, ⟨"DRW", 0xF000, 0xD000⟩ ]

/-- The rows of R76 of families `0xE` and `0xF`. -/
def opcodeRowsHigh : List OpcodeRow :=
  [ ⟨"SKP", 0xF0FF, 0xE09E⟩, ⟨"SKNP", 0xF0FF, 0xE0A1⟩, ⟨"GETDT", 0xF0FF, 0xF007⟩,
    ⟨"WAITK", 0xF0FF, 0xF00A⟩, ⟨"SETDT", 0xF0FF, 0xF015⟩, ⟨"SETST", 0xF0FF, 0xF018⟩,
    ⟨"ADDIX", 0xF0FF, 0xF01E⟩, ⟨"FONT", 0xF0FF, 0xF029⟩, ⟨"BCD", 0xF0FF, 0xF033⟩,
    ⟨"STORE", 0xF0FF, 0xF055⟩, ⟨"LOAD", 0xF0FF, 0xF065⟩, ⟨"SAVEF", 0xF0FF, 0xF075⟩,
    ⟨"LOADF", 0xF0FF, 0xF085⟩ ]

/-- The complete instruction list of R76, 36 rows. -/
def opcodeTable : List OpcodeRow := opcodeRowsLow ++ opcodeRowsMiddle ++ opcodeRowsHigh

/-- A word is the instruction of a row (R76). -/
def OpcodeRow.holds (row : OpcodeRow) (w : InstrWord) : Bool := w &&& row.mask == row.pattern

/-! ### The decoder on words numbered as spec/opcode_table.json numbers them -/

/-- The two bytes of the 16-bit word `w` in memory order, the bits from `nbits` up zero (the table numbers bit 0 as the
least significant bit of the word; the high byte lies at the lower address, R53). -/
def tableWordBytes (nbits w : Nat) : List Byte :=
  [BitVec.ofNat 8 (w % 2 ^ nbits / 0x100), BitVec.ofNat 8 (w % 2 ^ nbits)]

/-- The instruction the decoder reads from a word of the opcode table. -/
def decodeTableWord (nbits w : Nat) : Option Instr :=
  match decodeBytes (tableWordBytes nbits w) with
  | .ok (i, _) => some i
  | .error _ => none

end Sys2Proof
end

