-- ==== Sys2Proof/Machine/Params.lean ====
section
/-!
DEFINITION. The default configuration of 00_scope.md R7 and what memory holds after a reset without a program (R35).
-/

namespace Sys2Proof.Machine

/-- The glyphs 0 to 7 of R36. -/
def fontGlyphsLow : List Byte :=
  [ 0xF0, 0x90, 0x90, 0x90, 0xF0, 0x20, 0x60, 0x20, 0x20, 0x70,
    0xF0, 0x10, 0xF0, 0x80, 0xF0, 0xF0, 0x10, 0xF0, 0x10, 0xF0,
    0x90, 0x90, 0xF0, 0x10, 0x10, 0xF0, 0x80, 0xF0, 0x10, 0xF0,
    0xF0, 0x80, 0xF0, 0x90, 0xF0, 0xF0, 0x10, 0x20, 0x40, 0x40 ]

/-- The glyphs 8 to F of R36. -/
def fontGlyphsHigh : List Byte :=
  [ 0xF0, 0x90, 0xF0, 0x90, 0xF0, 0xF0, 0x90, 0xF0, 0x10, 0xF0,
    0xF0, 0x90, 0xF0, 0x90, 0x90, 0xE0, 0x90, 0xE0, 0x90, 0xE0,
    0xF0, 0x80, 0x80, 0x80, 0xF0, 0xE0, 0x90, 0x90, 0x90, 0xE0,
    0xF0, 0x80, 0xF0, 0x80, 0xF0, 0xF0, 0x80, 0xF0, 0x80, 0x80 ]

/-- The default FONT_DATA: sixteen glyphs of five bytes, glyph `d` at `5 * d` (R36). PRESUMED (G4), log entry 17. -/
def defaultFontData : Vector Byte 80 :=
  Vector.ofFn fun k => (fontGlyphsLow ++ fontGlyphsHigh).getD k.val 0

/-- The default ERR_CODE: the errors in the source's listing order, 0 for no error (R180). Log entry 28. -/
def defaultErrCodes : ErrCodes where
  noError := 0
  illegalOpcode := 1
  stackOverflow := 2
  badReturn := 3
  programTooLong := 4
  flagOverflow := 5

/-- The defaults of R7. DESIGN CHOICE (the spec's own: D3, D7, D18, D21, D22), log entries 1, 3, 13,
17, 28, 31. -/
def defaultCfg : Cfg where
  fontBase := 0x050
  fontData := defaultFontData
  shiftSrc := .vx
  flagsReadOrder := .be
  seedBits := 64
  errCode := defaultErrCodes

/-- What the cell at address `a` holds after a reset that loads no program: the font from FONT_BASE on, 0 elsewhere
(R35, R58). It is what an address not listed in memory reads as (log entry 10). -/
def resetByte (c : Cfg) (a : Nat) : Byte :=
  if h : c.fontBase.toNat ≤ a ∧ a - c.fontBase.toNat < 80 then
    c.fontData.get ⟨a - c.fontBase.toNat, h.2⟩
  else 0

end Sys2Proof.Machine
end

