-- ==== Sys2Proof/Machine/State.lean ====
section
/-!
DEFINITION. The state of the block: the whole list of 10_state.md R20, and the configuration; the ways an operation
can stop; the state after reset.
-/

namespace Sys2Proof.Machine

/-- The 4096 cells of `mem` (R35), as the list of those cells that differ from the reset contents `resetByte`, by
rising address. `Memory.wf` of Machine/Ops.lean is the canonical form. -/
abbrev Memory := List Host.Cell

/-- The state of the block. -/
structure State where
  /-- the memory (R35, R50) -/
  mem : Memory
  /-- the program counter: the address of the instruction the next step fetches (R23) -/
  pc : Addr
  /-- the index register (R24) -/
  I : Addr
  /-- the general registers `V[0]` to `V[15]` (R21); `V[15]` is the flag `VF` (R22) -/
  V : Vector Byte 16
  /-- the saved return addresses; `stack[0]` to `stack[sp - 1]` are in use, the others stale (R25) -/
  stack : Vector Addr 16
  /-- how many entries of `stack` are in use, 0 to 16 (R25) -/
  sp : Fin 17
  /-- the delay timer (R26) -/
  DT : Byte
  /-- the sound timer (R27) -/
  ST : Byte
  /-- the display buffer: 2048 pixels, eight a byte, row-major (R28, R135) -/
  fb : Vector Byte 256
  /-- the display dirty bit (R29) -/
  dispDirty : Bool
  /-- the flag store (R30) -/
  flag : Vector Byte 8
  /-- the flags dirty bit (R31) -/
  flagsDirty : Bool
  /-- the key latch: the mask of the last `set_keys` (R32) -/
  keys : KeyMask
  /-- the blocking-wait sub-state: the register that waits for a key, or none (R33) -/
  wait : Option Reg
  /-- the generator's state (R34) -/
  rng : Config.RngState
  /-- the block must not be used before the next successful `init` (R37) -/
  poisoned : Bool
  /-- the configuration of R7; no operation changes it (log entry 1) -/
  cfg : Cfg
deriving DecidableEq, Repr, Inhabited

/-- The closed error set of R180: a failing operation reports one of these and, when it is a `step`, writes nothing
(R182). All five are the spec's own errors; log entry 6. -/
inductive Fault where
  /-- `step`: the word at `pc` matches no instruction (R93). Safe: the spec says the step fails and changes nothing. -/
  | illegalOpcode
  /-- `2NNN` with `sp = 16` (R102). Safe: the spec says the step fails and changes nothing. -/
  | stackOverflow
  /-- `00EE` with `sp = 0` (R100). Safe: the spec says the step fails and changes nothing. -/
  | badReturn
  /-- `init` with more than 3584 bytes (R201); no `step` raises it. Safe: the block is poisoned after it. -/
  | programTooLong
  /-- `FX75` and `FX85` with `x > 7` (R157). Safe: the spec says the step fails and changes nothing. -/
  | flagOverflow
deriving DecidableEq, Repr

/-- Why the model gives an operation no meaning. -/
inductive Refusal where
  /-- an instruction whose meaning is not written yet; raised by exec's arms alone. Safe: nothing runs. -/
  | notModelled (mnemonic : String)
  /-- any operation but `init` on a poisoned block, whose result the spec calls undefined (R37, R203, R204, U1, U11);
  raised by `step` and `transact` and `observe`. Safe: nothing runs. Log entry 7. -/
  | poisoned
deriving DecidableEq, Repr

/-- What an instruction or a step answers. -/
abbrev Result := Host.Outcome State Fault Refusal

/-- The state after a successful `init` with configuration `c`, seed `seed`, no program and all flag bytes 0, field by
field as R39 tabulates it. `init` of Machine/HostOps.lean adds the program and the flag bytes. -/
def State.afterReset (c : Cfg) (seed : Seed) : State where
  mem := []
  pc := 0x200
  I := 0
  V := Vector.replicate 16 0
  stack := Vector.replicate 16 0
  sp := 0
  DT := 0
  ST := 0
  fb := Vector.replicate 256 0
  dispDirty := false
  flag := Vector.replicate 8 0
  flagsDirty := false
  keys := 0
  wait := none
  rng := Config.rngInit seed
  poisoned := false
  cfg := c

/-- The machine right after reset: `init` with an empty program, seed 0 and `init_flags = 0`, in the default
configuration of R7. DESIGN CHOICE of the three inputs of `init`, log entry 4. -/
def State.reset : State := State.afterReset defaultCfg { bits := defaultCfg.seedBits, value := 0 }

end Sys2Proof.Machine
end

