-- ==== Sys2Proof/Machine/Ops.lean ====
section
/-!
DEFINITION. The named operations over registers, memory, the stack, the display and the other pieces of state, and
`raise`, which is all that taking an exception is on this hardware (60_exceptions.md R182, R183). There is no return
from an exception (R184).
-/

namespace Sys2Proof.Machine

/-! ### Setters, one a piece of state -/

/-- `V[x] <- v` (R10). -/
def State.setReg (s : State) (x : Reg) (v : Byte) : State := { s with V := s.V.set x.val v x.isLt }

/-- `pc <- target`; a 12-bit value is already reduced modulo 4096 (R10, R23). -/
def State.setPc (s : State) (target : Addr) : State := { s with pc := target }

/-- `I <- a` (R24). -/
def State.setIndex (s : State) (a : Addr) : State := { s with I := a }

/-- `stack[k] <- a` (R25). -/
def State.setStackEntry (s : State) (k : Fin 16) (a : Addr) : State := { s with stack := s.stack.set k.val a k.isLt }

/-- `sp <- n` (R25). -/
def State.setSp (s : State) (n : Fin 17) : State := { s with sp := n }

/-- `DT <- v` (R26). -/
def State.setDelay (s : State) (v : Byte) : State := { s with DT := v }

/-- `ST <- v` (R27). -/
def State.setSound (s : State) (v : Byte) : State := { s with ST := v }

/-- The whole display buffer (R28). -/
def State.setDisplay (s : State) (fb : Vector Byte 256) : State := { s with fb := fb }

/-- `disp_dirty <- b` (R29). -/
def State.setDispDirty (s : State) (b : Bool) : State := { s with dispDirty := b }

/-- `flag[k] <- v` (R30). -/
def State.setFlag (s : State) (k : Fin 8) (v : Byte) : State := { s with flag := s.flag.set k.val v k.isLt }

/-- `flags_dirty <- b` (R31). -/
def State.setFlagsDirty (s : State) (b : Bool) : State := { s with flagsDirty := b }

/-- `keys <- mask` (R32). -/
def State.setKeyLatch (s : State) (mask : KeyMask) : State := { s with keys := mask }

/-- `wait <- w` (R33). -/
def State.setWait (s : State) (w : Option Reg) : State := { s with wait := w }

/-- `rng <- r` (R34). -/
def State.setRng (s : State) (r : Config.RngState) : State := { s with rng := r }

/-! ### Registers, flag store, stack: reads -/

/-- `V[x]` (R10). -/
def State.reg (s : State) (x : Reg) : Byte := s.V.get x

/-- `flag[k]` (R10). -/
def State.flagByte (s : State) (k : Fin 8) : Byte := s.flag.get k

/-- `stack[k]` (R10). -/
def State.stackEntry (s : State) (k : Fin 16) : Addr := s.stack.get k

/-! ### Memory -/

/-- The canonical form: addresses strictly rising and below 4096, no entry equal to what an unlisted address reads
as. -/
abbrev Memory.wf (c : Cfg) (m : Memory) : Prop :=
  m.Pairwise (fun p q => p.1 < q.1) ∧ ∀ p ∈ m, p.1 < 4096 ∧ p.2 ≠ resetByte c p.1

/-- The cell at address `a`: the listed byte, else the reset contents. -/
def Memory.read (c : Cfg) : Memory → Nat → Byte
  | [], a => resetByte c a
  | (k, v) :: rest, a => if k = a then v else Memory.read c rest a

/-- `b` in front of the cells `rest`, unless it is what the unlisted address reads as. -/
def Memory.put (c : Cfg) (a : Nat) (b : Byte) (rest : Memory) : Memory :=
  if b = resetByte c a then rest else (a, b) :: rest

/-- The memory with `b` in the cell at address `a`, in canonical form. -/
def Memory.write (c : Cfg) : Memory → Nat → Byte → Memory
  | [], a, b => Memory.put c a b []
  | (k, v) :: rest, a, b =>
    if a < k then Memory.put c a b ((k, v) :: rest)
    else if a = k then Memory.put c a b rest
    else (k, v) :: Memory.write c rest a b

/-- `MemRead(a, 1)`: the only access size is a byte, and a 12-bit address is already reduced modulo 4096 (R10, R51,
R55). It has no side effect and cannot fail (R57, R59). -/
def State.readByte (s : State) (a : Addr) : Byte := Memory.read s.cfg s.mem a.toNat

/-- `MemWrite(a, 1, b)` (R10, R55). -/
def State.writeByte (s : State) (a : Addr) (b : Byte) : State := { s with mem := Memory.write s.cfg s.mem a.toNat b }

/-- `Fetch16(a)`: the byte at `a` in bits 15:8, the byte at `(a + 1) mod 4096` in bits 7:0 (R10, R53, R92). -/
def fetch16 (s : State) (a : Addr) : InstrWord := wordOfBytes (s.readByte a) (s.readByte (a + 1))

/-- The effective address `(I + i) mod 4096`, the only data addressing mode (R131, R51). -/
def indexed (s : State) (i : Nat) : Addr := s.I + BitVec.ofNat 12 i

/-- Register number `i`, for an `i` below 16. -/
def regNumber (i : Nat) : Reg := ⟨i % 16, Nat.mod_lt _ (by decide)⟩

/-- Flag-store byte number `i`, for an `i` below 8. -/
def flagNumber (i : Nat) : Fin 8 := ⟨i % 8, Nat.mod_lt _ (by decide)⟩

/-- `for i from 0 to count - 1, ascending: MemWrite(I + i, 1, V[i])`, of `FX55` (R129). -/
def storeRegs : Nat → State → State
  | 0, s => s
  | i + 1, s => (storeRegs i s).writeByte (indexed s i) (s.reg (regNumber i))

/-- `for i from 0 to count - 1, ascending: V[i] <- MemRead(I + i, 1)`, of `FX65` (R130). -/
def loadRegs : Nat → State → State
  | 0, s => s
  | i + 1, s => (loadRegs i s).setReg (regNumber i) (s.readByte (indexed s i))

/-! ### The flag store -/

/-- `for i from 0 to count - 1: flag[i] <- V[i]`, of `FX75` (R155). -/
def saveFlags : Nat → State → State
  | 0, s => s
  | i + 1, s => (saveFlags i s).setFlag (flagNumber i) (s.reg (regNumber i))

/-- `for i from 0 to count - 1: V[i] <- flag[i]`, of `FX85` (R156). -/
def loadFlags : Nat → State → State
  | 0, s => s
  | i + 1, s => (loadFlags i s).setReg (regNumber i) (s.flagByte (flagNumber i))

/-! ### The program counter -/

/-- `next`, the address after this instruction: `(pc + 2) mod 4096` (R10). -/
def nextPc (s : State) : Addr := s.pc + 2

/-- `skip`, the address after the next instruction: `(pc + 4) mod 4096` (R10). -/
def skipPc (s : State) : Addr := s.pc + 4

/-- `pc <- next` (R95 c). -/
def State.advance (s : State) : State := s.setPc (nextPc s)

/-- `if cond then pc <- skip else pc <- next` (R95 b). -/
def State.skipIf (s : State) (cond : Bool) : State := s.setPc (if cond then skipPc s else nextPc s)

/-! ### Errors -/

/-- `raise e`: the operation ends with failure status and that error, and no state is written; this is all that taking
an exception is here (R10, R182, R183). -/
def raise (e : Fault) : Result := .fault e

/-! ### The call stack -/

/-- The push of `2NNN`: `StackOverflow` when all sixteen entries are in use; else the address goes into `stack[sp]`,
`sp` goes up by one, and `pc` is set to the target (R102). -/
def pushAndJump (s : State) (returnTo target : Addr) : Result :=
  if h : s.sp.val < 16 then
    .next (((s.setStackEntry ⟨s.sp.val, h⟩ returnTo).setSp ⟨s.sp.val + 1, by omega⟩).setPc target)
  else raise .stackOverflow

/-- The pop of `00EE`: `BadReturn` when no entry is in use; else `sp` goes down by one and `pc` takes the entry
released (R100). -/
def popAndJump (s : State) : Result :=
  if h : 0 < s.sp.val then
    .next ((s.setSp ⟨s.sp.val - 1, by omega⟩).setPc (s.stackEntry ⟨s.sp.val - 1, by omega⟩))
  else raise .badReturn

/-! ### The display (R135, R139) -/

/-- The pixel index of column `px`, row `py`: `64 * py + px`; columns and rows are reduced modulo 64 and 32 by their
types. -/
def pixelIndex (px : Fin 64) (py : Fin 32) : Nat := 64 * py.val + px.val

/-- The byte of the display buffer that holds a pixel. -/
def pixelByte (px : Fin 64) (py : Fin 32) : Fin 256 := ⟨pixelIndex px py / 8, by unfold pixelIndex; omega⟩

/-- The bit of that byte, least-significant bit first. -/
def pixelBit (px : Fin 64) (py : Fin 32) : Nat := pixelIndex px py % 8

/-- `Pixel(px, py) = fb[idx div 8][idx mod 8]`. -/
def pixel (fb : Vector Byte 256) (px : Fin 64) (py : Fin 32) : Bool :=
  (fb.get (pixelByte px py)).getLsbD (pixelBit px py)

/-- `SetPixel(px, py, Pixel(px, py) XOR 1)`: one pixel inverted. -/
def invertPixel (fb : Vector Byte 256) (px : Fin 64) (py : Fin 32) : Vector Byte 256 :=
  fb.set (pixelByte px py).val (fb.get (pixelByte px py) ^^^ BitVec.twoPow 8 (pixelBit px py)) (pixelByte px py).isLt

/-- The display buffer with every pixel 0. -/
def clearDisplay : Vector Byte 256 := Vector.replicate 256 0

/-- What a draw builds up: the display buffer and whether a pixel was erased so far. -/
structure Canvas where
  fb : Vector Byte 256
  collision : Bool
deriving DecidableEq, Repr

/-- `n mod 64`, a column (R137). -/
def columnOf (n : Nat) : Fin 64 := ⟨n % 64, Nat.mod_lt _ (by decide)⟩

/-- `n mod 32`, a row (R137). -/
def rowOf (n : Nat) : Fin 32 := ⟨n % 32, Nat.mod_lt _ (by decide)⟩

/-- One 1 bit of a sprite: a lit pixel is erased and counts as a collision, a dark one is lit (R137). -/
def Canvas.plot (k : Canvas) (px : Fin 64) (py : Fin 32) : Canvas :=
  { fb := invertPixel k.fb px py, collision := k.collision || pixel k.fb px py }

/-- `for c from 0 to count - 1`: the sprite columns of one row byte `b`, bit 7 the leftmost, drawn from column `x0` on
row `py`, each column reduced modulo 64 (R137, R139). -/
def drawColumns (x0 : Nat) (py : Fin 32) (b : Byte) : Nat → Canvas → Canvas
  | 0, k => k
  | c + 1, k =>
    let k' := drawColumns x0 py b c k
    if b.getLsbD (7 - c) then k'.plot (columnOf (x0 + c)) py else k'

/-- `for r from 0 to count - 1`: the sprite rows, row `r` the byte at `I + r`, drawn on row `(y0 + r) mod 32` (R137). -/
def drawRows (s : State) (x0 y0 : Nat) : Nat → Canvas → Canvas
  | 0, k => k
  | r + 1, k => drawColumns x0 (rowOf (y0 + r)) (s.readByte (indexed s r)) 8 (drawRows s x0 y0 r k)

end Sys2Proof.Machine
end

