-- ==== Sys2Proof/Machine/Operands.lean ====
section
/-!
DEFINITION. The operand forms whose value is more than a register or an immediate.
-/

namespace Sys2Proof.Machine

/-- The source of a shift: `V[x]` or `V[y]`, as SHIFT_SRC says (R118, R120, D3). Log entry 13. -/
def shiftSource (s : State) (x y : Reg) : Byte :=
  match s.cfg.shiftSrc with
  | .vx => s.reg x
  | .vy => s.reg y

/-- `v[3:0]`, the low nibble, as a number 0 to 15 (R127, R151). -/
def lowNibble (v : Byte) : Reg := (v.extractLsb' 0 4).toFin

/-- Key `V[x]` is pressed: the key is the low nibble, pressed when its bit of the latch is 1 (R151, D12). Log entry
22. -/
def keyPressed (s : State) (x : Reg) : Bool := s.keys.getLsbD (lowNibble (s.reg x)).val

/-- The address of the glyph for digit `d`: `(FONT_BASE + 5 * d) mod 4096` (R127, D7). Log entry 17. -/
def glyphAddr (c : Cfg) (d : Reg) : Addr := c.fontBase + BitVec.ofNat 12 (5 * d.val)

/-- The hundreds digit of a byte, 0 to 2, as a binary number of its own (R128). -/
def hundredsDigit (v : Byte) : Byte := BitVec.ofNat 8 (v.toNat / 100)

/-- The tens digit of a byte, 0 to 9 (R128). -/
def tensDigit (v : Byte) : Byte := BitVec.ofNat 8 (v.toNat / 10 % 10)

/-- The ones digit of a byte, 0 to 9 (R128). -/
def onesDigit (v : Byte) : Byte := BitVec.ofNat 8 (v.toNat % 10)

/-- `zext_12(v)` (R10). -/
def zext12 (v : Byte) : Addr := v.setWidth 12

end Sys2Proof.Machine
end

