-- ==== Sys2Proof/Machine/Flags.lean ====
section
/-!
DEFINITION. The flag computations: the value the six flag-writing instructions leave in `VF` (R22, R122).
-/

namespace Sys2Proof.Machine

/-- A flag as the byte written to `VF`: 0x01 or 0x00 (R22). -/
def flagValue (b : Bool) : Byte := if b then 1 else 0

/-- The carry of an addition: 1 exactly when the true sum exceeds 255 (R116, R122). -/
def carryOut (a b : Byte) : Bool := decide (255 < a.toNat + b.toNat)

/-- The flag of a subtraction `a - b`: 1 exactly when there is no borrow, `a >= b` (R117, R119, R122, D4). Log entry
14. -/
def noBorrow (a b : Byte) : Bool := decide (b.toNat ≤ a.toNat)

/-- The bit a right shift moves out: bit 0 of the source (R118). -/
def bitOutRight (v : Byte) : Bool := v.getLsbD 0

/-- The bit a left shift moves out: bit 7 of the source (R120). -/
def bitOutLeft (v : Byte) : Bool := v.getLsbD 7

/-- The result goes to `V[x]`, then the flag to `V[15]`, which is what remains when `x` is 15 (R123, D5). Log entry
15. -/
def State.setResultAndFlag (s : State) (x : Reg) (result : Byte) (flag : Bool) : State :=
  (s.setReg x result).setReg vf (flagValue flag)

end Sys2Proof.Machine
end

