-- ==== Sys2Proof/Machine/Alu.lean ====
section
/-!
DEFINITION. Register load, arithmetic, logic and random (42_alu.md R110 to R124). Every one ends with `pc <- next`
(R124) and reads its sources before it writes (R123).
-/

namespace Sys2Proof.Machine

/-- `6XNN` LDI: `V[x] <- nn` (R110). -/
def execLdi (x : Reg) (nn : Byte) (s : State) : Result := .next (s.setReg x nn).advance

/-- `7XNN` ADDI: `V[x] <- (V[x] + nn) mod 256`; the carry is discarded (R111). -/
def execAddi (x : Reg) (nn : Byte) (s : State) : Result := .next (s.setReg x (s.reg x + nn)).advance

/-- `8XY0` MOV: `V[x] <- V[y]` (R112). -/
def execMov (x y : Reg) (s : State) : Result := .next (s.setReg x (s.reg y)).advance

/-- `8XY1` OR: `VF` is not written as a flag (R113, D6). Log entry 16. -/
def execOr (x y : Reg) (s : State) : Result := .next (s.setReg x (s.reg x ||| s.reg y)).advance

/-- `8XY2` AND: `VF` is not written as a flag (R114, D6). Log entry 16. -/
def execAnd (x y : Reg) (s : State) : Result := .next (s.setReg x (s.reg x &&& s.reg y)).advance

/-- `8XY3` XOR: `VF` is not written as a flag (R115, D6). Log entry 16. -/
def execXor (x y : Reg) (s : State) : Result := .next (s.setReg x (s.reg x ^^^ s.reg y)).advance

/-- `8XY4` ADD: the sum modulo 256, and the carry out into `VF` last (R116). -/
def execAdd (x y : Reg) (s : State) : Result :=
  .next (s.setResultAndFlag x (s.reg x + s.reg y) (carryOut (s.reg x) (s.reg y))).advance

/-- `8XY5` SUB: `V[x] - V[y]` modulo 256, and 1 into `VF` last when there is no borrow (R117). -/
def execSub (x y : Reg) (s : State) : Result :=
  .next (s.setResultAndFlag x (s.reg x - s.reg y) (noBorrow (s.reg x) (s.reg y))).advance

/-- `8XY6` SHR: the source moved right by one with a 0 entering at bit 7, and bit 0 of the source into `VF` last
(R118). -/
def execShr (x y : Reg) (s : State) : Result :=
  .next (s.setResultAndFlag x (shiftSource s x y >>> 1) (bitOutRight (shiftSource s x y))).advance

/-- `8XY7` SUBN: `V[y] - V[x]` modulo 256, and 1 into `VF` last when there is no borrow (R119). -/
def execSubn (x y : Reg) (s : State) : Result :=
  .next (s.setResultAndFlag x (s.reg y - s.reg x) (noBorrow (s.reg y) (s.reg x))).advance

/-- `8XYE` SHL: the source moved left by one with a 0 entering at bit 0, and bit 7 of the source into `VF` last
(R120). -/
def execShl (x y : Reg) (s : State) : Result :=
  .next (s.setResultAndFlag x (shiftSource s x y <<< 1) (bitOutLeft (shiftSource s x y))).advance

/-- `CXNN` RND: the generator advances by one step, and its byte AND `nn` goes to `V[x]` (R121, R34). The byte is a
free value: `Config.rngStep` is uninterpreted. Log entry 2. -/
def execRnd (x : Reg) (nn : Byte) (s : State) : Result :=
  .next ((s.setRng (Config.rngStep s.rng).1).setReg x ((Config.rngStep s.rng).2 &&& nn)).advance

end Sys2Proof.Machine
end

