-- ==== Sys2Proof/Machine/ControlFlow.lean ====
section
/-!
DEFINITION. The control transfer instructions (41_control_flow.md R100 to R109).
-/

namespace Sys2Proof.Machine

/-- `00EE` RET: `BadReturn` when the stack is empty, else `sp <- sp - 1; pc <- stack[sp]` (R100). -/
def execRet (s : State) : Result := popAndJump s

/-- `1NNN` JP: `pc <- nnn`, any address (R101, R108). -/
def execJp (nnn : Addr) (s : State) : Result := .next (s.setPc nnn)

/-- `2NNN` CALL: `StackOverflow` when the stack is full, else the return address `(pc + 2) mod 4096` is pushed and
`pc <- nnn` (R102, D26). Log entry 34. -/
def execCall (nnn : Addr) (s : State) : Result := pushAndJump s (nextPc s) nnn

/-- `3XNN` SEQI: skip if `V[x] = nn` (R103). -/
def execSeqi (x : Reg) (nn : Byte) (s : State) : Result := .next (s.skipIf (s.reg x == nn))

/-- `4XNN` SNEI: skip if `V[x] != nn` (R104). -/
def execSnei (x : Reg) (nn : Byte) (s : State) : Result := .next (s.skipIf (s.reg x != nn))

/-- `5XY0` SEQ: skip if `V[x] = V[y]` (R105). -/
def execSeq (x y : Reg) (s : State) : Result := .next (s.skipIf (s.reg x == s.reg y))

/-- `9XY0` SNE: skip if `V[x] != V[y]` (R106). -/
def execSne (x y : Reg) (s : State) : Result := .next (s.skipIf (s.reg x != s.reg y))

/-- `BNNN` JPV0: `pc <- (nnn + zext_12(V[0])) mod 4096` (R107, D15). Log entry 25. -/
def execJpv0 (nnn : Addr) (s : State) : Result := .next (s.setPc (nnn + zext12 (s.reg 0)))

end Sys2Proof.Machine
end

