-- ==== Sys2Proof/Machine/Display.lean ====
section
/-!
DEFINITION. The display instructions (44_display.md R135 to R140). Neither can fail, and both set the dirty bit
whether or not a pixel changed (R138, D10, log entry 20).
-/

namespace Sys2Proof.Machine

/-- `00E0` CLS: every pixel 0 and `disp_dirty <- 1`; `VF` is not written (R136). -/
def execCls (s : State) : Result := .next ((s.setDisplay clearDisplay).setDispDirty true).advance

/-- The draw of an `n`-row sprite at the position in `V[x]`, `V[y]`, from a display on which nothing is erased yet. -/
def drawSprite (x y : Reg) (n : Nat) (s : State) : Canvas :=
  drawRows s (s.reg x).toNat (s.reg y).toNat n { fb := s.fb, collision := false }

/-- `DXYN` DRW: the sprite at `I` is XORed onto the display with every coordinate reduced, `VF` becomes the collision
flag (always written, after the position was read), and `disp_dirty <- 1` (R137, D8, D9, D11). Log entries 18, 19,
21. -/
def execDrw (x y : Reg) (n : Nat) (s : State) : Result :=
  .next (((s.setDisplay (drawSprite x y n s).fb).setReg vf
    (flagValue (drawSprite x y n s).collision)).setDispDirty true).advance

end Sys2Proof.Machine
end

