-- ==== Sys2Proof/Machine/FlagStore.lean ====
section
/-!
DEFINITION. The flag-store instructions (46_flag_store.md R155 to R157). The check `x > 7` comes before anything is
read or written (R157).
-/

namespace Sys2Proof.Machine

/-- `FX75` SAVEF: `FlagOverflow` when `x > 7`, else `flag[0..x] <- V[0..x]` and `flags_dirty <- 1` (R155). -/
def execSavef (x : Reg) (s : State) : Result :=
  if 7 < x.val then raise .flagOverflow
  else .next ((saveFlags (x.val + 1) s).setFlagsDirty true).advance

/-- `FX85` LOADF: `FlagOverflow` when `x > 7`, else `V[0..x] <- flag[0..x]`; the flag store and its dirty bit are
unchanged (R156). -/
def execLoadf (x : Reg) (s : State) : Result :=
  if 7 < x.val then raise .flagOverflow
  else .next (loadFlags (x.val + 1) s).advance

end Sys2Proof.Machine
end

