-- ==== Sys2Proof/Machine/IndexMemory.lean ====
section
/-!
DEFINITION. The index register and memory instructions (43_index_memory.md R125 to R131). None can fail, none writes
`VF` as a flag, none changes `I` by an access, and each ends with `pc <- next`.
-/

namespace Sys2Proof.Machine

/-- `ANNN` SETI: `I <- nnn` (R125). -/
def execSeti (nnn : Addr) (s : State) : Result := .next (s.setIndex nnn).advance

/-- `FX1E` ADDIX: `I <- (I + zext_12(V[x])) mod 4096`; `VF` is not written (R126, D25). Log entry 16. -/
def execAddix (x : Reg) (s : State) : Result := .next (s.setIndex (s.I + zext12 (s.reg x))).advance

/-- `FX29` FONT: `I <- (FONT_BASE + 5 * V[x][3:0]) mod 4096`; no memory is read (R127). -/
def execFont (x : Reg) (s : State) : Result := .next (s.setIndex (glyphAddr s.cfg (lowNibble (s.reg x)))).advance

/-- `FX33` BCD: the hundreds, tens and ones digit of `V[x]` at `I`, `I + 1`, `I + 2` (R128, D24). Log entry 33. -/
def execBcd (x : Reg) (s : State) : Result :=
  .next (((s.writeByte (indexed s 0) (hundredsDigit (s.reg x))).writeByte (indexed s 1)
    (tensDigit (s.reg x))).writeByte (indexed s 2) (onesDigit (s.reg x))).advance

/-- `FX55` STORE: `V[0]` to `V[x]` into memory from `I` on; `I` is unchanged (R129). -/
def execStore (x : Reg) (s : State) : Result := .next (storeRegs (x.val + 1) s).advance

/-- `FX65` LOAD: `V[0]` to `V[x]` from memory from `I` on; `I` is unchanged (R130). -/
def execLoad (x : Reg) (s : State) : Result := .next (loadRegs (x.val + 1) s).advance

end Sys2Proof.Machine
end

