-- ==== Sys2Proof/Machine/KeysTimers.lean ====
section
/-!
DEFINITION. The key and timer instructions (45_keys_timers.md R145 to R151). None can fail.
-/

namespace Sys2Proof.Machine

/-- `EX9E` SKP: skip if key `V[x]` is pressed in the latch (R145). -/
def execSkp (x : Reg) (s : State) : Result := .next (s.skipIf (keyPressed s x))

/-- `EXA1` SKNP: skip if key `V[x]` is not pressed in the latch (R146). -/
def execSknp (x : Reg) (s : State) : Result := .next (s.skipIf (!keyPressed s x))

/-- `FX07` GETDT: `V[x] <- DT` (R147). -/
def execGetdt (x : Reg) (s : State) : Result := .next (s.setReg x s.DT).advance

/-- `FX0A` WAITK: `wait <- some x` and `pc <- next`; no register is written and the latch is not looked at
(R148, D13). Log entry 23. -/
def execWaitk (x : Reg) (s : State) : Result := .next (s.setWait (some x)).advance

/-- `FX15` SETDT: `DT <- V[x]` (R149). -/
def execSetdt (x : Reg) (s : State) : Result := .next (s.setDelay (s.reg x)).advance

/-- `FX18` SETST: `ST <- V[x]` (R150). -/
def execSetst (x : Reg) (s : State) : Result := .next (s.setSound (s.reg x)).advance

end Sys2Proof.Machine
end

