-- ==== Sys2Proof/Machine/Cycle.lean ====
section
/-!
DEFINITION. The phases of one step around the instruction it executes (40_step_dispatch.md R90 to R98), and the placing
of an instruction where the next step fetches.
-/

namespace Sys2Proof.Machine

/-- Decode a fetched word and execute it; a word that matches no instruction fails with `IllegalOpcode` (R93, R94). -/
def runWord (w : InstrWord) (s : State) : Result :=
  match decode w with
  | some i => exec i s
  | none => raise .illegalOpcode

/-- One step (R90): refused on a poisoned block (R91, R37); nothing at all, and `ok`, while waiting for a key (R91,
D14); else fetch at `pc`, decode, execute (R92 to R95). Log entries 7 and 24. -/
def stepCycle (s : State) : Result :=
  if s.poisoned then .refused .poisoned
  else match s.wait with
    | some _ => .next s
    | none => runWord (fetch16 s s.pc) s

/-- The instruction whose bits are `w`, stored at `pc` and `pc + 1`, in a block that is neither waiting nor poisoned, so
that the next step fetches and runs it. Log entry 5. -/
def placeAtPc (s : State) (nbits w : Nat) : State :=
  let ready := { s with wait := none, poisoned := false }
  match tableWordBytes nbits w with
  | first :: second :: _ => (ready.writeByte ready.pc first).writeByte (ready.pc + 1) second
  | _ => ready

end Sys2Proof.Machine
end

