-- ==== Sys2Proof/Machine/Step.lean ====
section
/-!
DEFINITION. The operation `step` (40_step_dispatch.md R90), and the state in which the next step runs a given word.
-/

namespace Sys2Proof.Machine

/-- One step of the core (R90). -/
def step (s : State) : Host.Outcome State Fault Refusal := stepCycle s

/-- `s` with the instruction whose bits are `w` where `step` fetches next. -/
def State.withFetchWord (s : State) (nbits w : Nat) : State := placeAtPc s nbits w

end Sys2Proof.Machine
end

