-- ==== Sys2Proof/Machine/HostOps.lean ====
section
/-!
DEFINITION. The state-changing host operations other than `step`: `init` (70_reset_and_hazards.md R200 to R211), `tick`,
`set_keys` and the dirty acknowledgments (48_host_operations.md R163, R164, R167, R170).
-/

namespace Sys2Proof.Machine

/-- The status an operation returns (R12, R176): `ok`, or `fail` with one error of the closed set. -/
inductive Status where
  | ok
  | fail (e : Fault)
deriving DecidableEq, Repr

/-- What an operation answers: the state after it and its status. -/
structure Response where
  state : State
  status : Status
deriving DecidableEq, Repr

/-! ### The unspecified state -/

/-- Every piece of state after a failed `init` with these arguments on this state: a free value (R203). Log entry 8. -/
opaque unspecifiedAfterInit : List Byte → Seed → PackedFlags → State → State

/-- Every piece of state before the first `init`: a free value (R204). Log entry 8. -/
opaque unspecifiedAtPowerOn : State

/-- Any contents of memory, in canonical form. -/
def Memory.ofCells (c : Cfg) (cells : List Host.Cell) : Memory :=
  cells.foldl (fun m p => Memory.write c m (p.1 % 4096) p.2) []

/-- The poisoned block whose other pieces of state are those of `u`, with the block's own configuration `c`
(R37, R203, R204). -/
def poisonedBlock (c : Cfg) (u : State) : State :=
  { u with mem := Memory.ofCells c u.mem, poisoned := true, cfg := c }

/-- The block at power-on, before any `init` (R204, D30). -/
def powerOn (c : Cfg) : State := poisonedBlock c unspecifiedAtPowerOn

/-! ### init -/

/-- The first byte of the program image in memory (R6, R58). -/
def programBase : Nat := 0x200

/-- The space between 0x200 and the top of memory, MAX_PROGRAM_LEN of R6. -/
def maxProgramLen : Nat := 4096 - programBase

/-- `mem[a + i] <- program[i]` for every byte of the image (R200). -/
def loadProgram (c : Cfg) : Memory → Nat → List Byte → Memory
  | m, _, [] => m
  | m, a, b :: rest => loadProgram c (Memory.write c m a b) (a + 1) rest

/-- `init_flags[8*i + 7 : 8*i]` for every `i` in 0 to 7 (R30, R200). -/
def unpackFlags (f : PackedFlags) : Vector Byte 8 := Vector.ofFn fun i => f.extractLsb' (8 * i.val) 8

/-- `init(program, seed, init_flags)`: a program of more than 3584 bytes fails with `ProgramTooLong` and leaves a
poisoned block; else every piece of state is set anew, whatever it was (R200, R201, R203, R211). -/
def init (program : List Byte) (seed : Seed) (initFlags : PackedFlags) (s : State) : Response :=
  if maxProgramLen < program.length then
    { state := poisonedBlock s.cfg (unspecifiedAfterInit program seed initFlags s), status := .fail .programTooLong }
  else
    { state := { State.afterReset s.cfg seed with
        mem := loadProgram s.cfg [] programBase program
        flag := unpackFlags initFlags }
      status := .ok }

/-! ### tick, set_keys, acknowledgments -/

/-- `if t > 0 then t <- t - 1` (R163). -/
def countDown (t : Byte) : Byte := if t = 0 then 0 else t - 1

/-- `tick()`: both timers go down by one, each floored at 0; nothing else (R163). -/
def tick (s : State) : State := (s.setDelay (countDown s.DT)).setSound (countDown s.ST)

/-- The keys that are 1 in `mask` and were 0 in the latch (R164). -/
def newlyPressed (s : State) (mask : KeyMask) : KeyMask := mask &&& ~~~s.keys

/-- The least `i` in `[0, 16)` whose bit of `m` is 1 (R164). -/
def lowestKey (m : KeyMask) : Option Reg := (List.finRange 16).find? fun i => m.getLsbD i.val

/-- `set_keys(mask)`: while waiting, a key that is newly pressed ends the wait and the lowest such key's number goes to
the waiting register; in every case the latch becomes `mask` (R164, D13, D32). Log entry 23. -/
def setKeys (mask : KeyMask) (s : State) : State :=
  match s.wait, lowestKey (newlyPressed s mask) with
  | some r, some k => ((s.setReg r (BitVec.ofNat 8 k.val)).setWait none).setKeyLatch mask
  | _, _ => s.setKeyLatch mask

/-- `clear_display_dirty()`: `disp_dirty <- 0` (R167). -/
def clearDisplayDirty (s : State) : State := s.setDispDirty false

/-- `clear_flags_dirty()`: `flags_dirty <- 0` (R170). -/
def clearFlagsDirty (s : State) : State := s.setFlagsDirty false

end Sys2Proof.Machine
end

