-- ==== Sys2Proof/Machine/Outputs.lean ====
section
/-!
DEFINITION. The observation outputs (48_host_operations.md R165 to R176): functions of the state, with no effect on it.
-/

namespace Sys2Proof.Machine

/-- `waiting_q`: 1 when `wait != none`; the register number is not output (R165). -/
def waitingQ (s : State) : Bool := s.wait.isSome

/-- `disp_dirty_q` (R166). -/
def dispDirtyQ (s : State) : Bool := s.dispDirty

/-- `disp_q`: the 256 bytes of the display buffer (R168). -/
def dispQ (s : State) : Vector Byte 256 := s.fb

/-- `flags_dirty_q` (R169). -/
def flagsDirtyQ (s : State) : Bool := s.flagsDirty

/-- Eight bytes as one 64-bit value, byte 0 the least significant. -/
def packLittleEndian (f : Fin 8 → Byte) : PackedFlags :=
  f 7 ++ f 6 ++ f 5 ++ f 4 ++ f 3 ++ f 2 ++ f 1 ++ f 0

/-- `flags_q`: the eight flag bytes packed in the order FLAGS_READ_ORDER: `BE` puts `flag[0]` in the most significant
byte, `LE` in the least (R171, D21). Log entry 31. -/
def flagsQ (s : State) : PackedFlags :=
  match s.cfg.flagsReadOrder with
  | .le => packLittleEndian s.flagByte
  | .be => packLittleEndian fun i => s.flagByte i.rev

/-- `instr_q`: `Fetch16(pc)`, the word the next ungated step would fetch (R172, D20). Log entry 30. -/
def instrQ (s : State) : InstrWord := fetch16 s s.pc

/-- `pc_q`: `zext_16(pc)` (R173). -/
def pcQ (s : State) : BitVec 16 := s.pc.setWidth 16

/-- `sound_on`: 1 when `ST != 0`; the spec's own addition (R174, D23). Log entry 32. -/
def soundOn (s : State) : Bool := s.ST != 0

/-- The number of an error at the `err` port (R180, D18). Log entry 28. -/
def errorCode (c : Cfg) : Fault → Nat
  | .illegalOpcode => c.errCode.illegalOpcode
  | .stackOverflow => c.errCode.stackOverflow
  | .badReturn => c.errCode.badReturn
  | .programTooLong => c.errCode.programTooLong
  | .flagOverflow => c.errCode.flagOverflow

/-- `err`: the code that goes with a status; meaningful only with `fail` (R176, R180). -/
def errPort (c : Cfg) : Status → Nat
  | .ok => c.errCode.noError
  | .fail e => errorCode c e

/-- The outputs of the port list of R176 that are continuous functions of the state. -/
structure Outputs where
  waitingQ : Bool
  dispDirtyQ : Bool
  dispQ : Vector Byte 256
  flagsDirtyQ : Bool
  flagsQ : PackedFlags
  instrQ : InstrWord
  pcQ : BitVec 16
  soundOn : Bool
deriving DecidableEq, Repr

/-- The outputs at a state. Reading them changes nothing (R160). -/
def outputsOf (s : State) : Outputs where
  waitingQ := waitingQ s
  dispDirtyQ := dispDirtyQ s
  dispQ := dispQ s
  flagsDirtyQ := flagsDirtyQ s
  flagsQ := flagsQ s
  instrQ := instrQ s
  pcQ := pcQ s
  soundOn := soundOn s

/-- An observing operation: refused on a poisoned block, whose outputs are unspecified (R203, U1). Log entry 7. -/
def observe (s : State) : Except Refusal Outputs :=
  if s.poisoned then .error .poisoned else .ok (outputsOf s)

end Sys2Proof.Machine
end

