-- ==== Sys2Proof/Machine/Block.lean ====
section
/-!
DEFINITION. The block as its host drives it: one transaction an operation, in any order the host chooses
(48_host_operations.md R160, R161, R176; 00_scope.md R16; log entry 9).
-/

namespace Sys2Proof.Machine

/-- The state-changing operations (R160). -/
inductive Op where
  | init (program : List Byte) (seed : Seed) (initFlags : PackedFlags)
  | step
  | tick
  | setKeys (mask : KeyMask)
  | clearDisplayDirty
  | clearFlagsDirty
deriving DecidableEq, Repr

/-- What `step` answers the host: a failed step leaves the state as it was and reports its error (R96, R182). -/
def stepResponse (s : State) : Except Refusal Response :=
  match step s with
  | .next t => .ok { state := t, status := .ok }
  | .fault e => .ok { state := s, status := .fail e }
  | .refused r => .error r

/-- An operation that cannot fail, refused on a poisoned block (R12, R203). -/
def harmless (f : State → State) (s : State) : Except Refusal Response :=
  if s.poisoned then .error .poisoned else .ok { state := f s, status := .ok }

/-- One transaction: the operation is performed atomically and answers the next state and its status, or is refused
(R11, R161, R176). -/
def transact (op : Op) (s : State) : Except Refusal Response :=
  match op with
  | .init program seed initFlags => .ok (init program seed initFlags s)
  | .step => stepResponse s
  | .tick => harmless tick s
  | .setKeys mask => harmless (setKeys mask) s
  | .clearDisplayDirty => harmless clearDisplayDirty s
  | .clearFlagsDirty => harmless clearFlagsDirty s

/-- A schedule of operations, one after the other, whatever their status; a refused operation ends it (R16, R206). -/
def runOps : List Op → State → Except Refusal State
  | [], s => .ok s
  | op :: rest, s =>
    match transact op s with
    | .ok r => runOps rest r.state
    | .error e => .error e

end Sys2Proof.Machine
end

