-- ==== Sys2Proof/Safety.lean ====
section
/-!
DEFINITION. The terms in which statements are made: the invariant, what it means that a piece of state is unchanged,
and which schedules of host operations are meant.
-/

namespace Sys2Proof.Machine

/-- The invariant of the block: memory is in its canonical form, and the font lies below the program area as R7
requires of a configuration. Every other bound is a bound of a field's type. -/
structure State.Inv (s : State) : Prop where
  memory : Memory.wf s.cfg s.mem
  config : s.cfg.wellFormed = true

/-- The pieces of state of R20, and the configuration. -/
inductive Part where
  | mem | pc | index | regs | stack | sp | delay | sound | display | dispDirty | flagStore | flagsDirty | keys | wait
  | rng | poisoned | cfg
deriving DecidableEq, Repr

/-- A piece of state is the same in `t` as in `s`; of memory, every byte reads the same. -/
def Part.same (p : Part) (s t : State) : Prop :=
  match p with
  | .mem => ∀ a : Addr, t.readByte a = s.readByte a
  | .pc => t.pc = s.pc
  | .index => t.I = s.I
  | .regs => ∀ r : Reg, t.reg r = s.reg r
  | .stack => ∀ k : Fin 16, t.stackEntry k = s.stackEntry k
  | .sp => t.sp = s.sp
  | .delay => t.DT = s.DT
  | .sound => t.ST = s.ST
  | .display => ∀ (px : Fin 64) (py : Fin 32), pixel t.fb px py = pixel s.fb px py
  | .dispDirty => t.dispDirty = s.dispDirty
  | .flagStore => ∀ k : Fin 8, t.flagByte k = s.flagByte k
  | .flagsDirty => t.flagsDirty = s.flagsDirty
  | .keys => t.keys = s.keys
  | .wait => t.wait = s.wait
  | .rng => t.rng = s.rng
  | .poisoned => t.poisoned = s.poisoned
  | .cfg => t.cfg = s.cfg

/-- The frame: every piece of state outside `changed` is the same in `t` as in `s`. -/
def KeepsAllBut (changed : List Part) (s t : State) : Prop := ∀ p : Part, p ∉ changed → p.same s t

/-- Register `x` holds `v` in `t`, and every other register is as in `s`. -/
def WritesReg (x : Reg) (v : Byte) (s t : State) : Prop := t.reg x = v ∧ ∀ r, r ≠ x → t.reg r = s.reg r

/-- `VF` holds the flag in `t`, register `x` holds the result unless it is `VF` itself, and every other register is as
in `s` (R123). -/
def WritesRegAndFlag (x : Reg) (v flag : Byte) (s t : State) : Prop :=
  t.reg vf = flag ∧ (x ≠ vf → t.reg x = v) ∧ ∀ r, r ≠ x → r ≠ vf → t.reg r = s.reg r

/-- Two answers agree but for the pieces of state in `changed`: both a next state, or both the same fault or
refusal. -/
def AgreeBut (changed : List Part) (a b : Result) : Prop :=
  match a, b with
  | .next t, .next u => KeepsAllBut changed t u
  | .fault e, .fault f => e = f
  | .refused r, .refused q => r = q
  | _, _ => False

/-- The operation is `init`, the only one that can undo a failed step or a poisoned block. -/
def Op.isInit : Op → Bool
  | .init _ _ _ => true
  | _ => false

/-- No `set_keys` of the schedule presents a key that the latch, as the schedule leaves it up to there, has at 0; no
operation is `init`. -/
def NoPress : KeyMask → List Op → Prop
  | _, [] => True
  | latch, .setKeys mask :: rest => mask &&& ~~~latch = 0 ∧ NoPress mask rest
  | latch, op :: rest => op.isInit = false ∧ NoPress latch rest

/-- `k` ticks, one after the other. -/
def ticks : Nat → State → State
  | 0, s => s
  | k + 1, s => tick (ticks k s)

/-- A call to each of the targets, one after the other. -/
def callAll : List Addr → State → Result
  | [], s => .next s
  | a :: rest, s =>
    match exec (.call a) s with
    | .next t => callAll rest t
    | .fault e => .fault e
    | .refused r => .refused r

/-- The sprite has a 1 bit for column `px` and row `py` of the display: some row `r < n` and column `c < 8` of it
lands there and that bit of the row's byte is 1 (R137, R139). -/
def SpriteCovers (s : State) (x0 y0 : Byte) (n : Nat) (px : Fin 64) (py : Fin 32) : Prop :=
  ∃ r c : Nat, r < n ∧ c < 8 ∧ (x0.toNat + c) % 64 = px.val ∧ (y0.toNat + r) % 32 = py.val ∧
    (s.readByte (indexed s r)).getLsbD (7 - c) = true

end Sys2Proof.Machine
end

