-- ==== Sys2Proof/Certificates/Slice0/Obligations.lean ====
section
/-!
DEFINITION. The statements for the provers, from the numbered rules of spec/.
-/

open Sys2Proof Sys2Proof.Machine

/-! ### Reset and init -/

/-- The state right after reset meets the invariant (R35, R39 with log entries 4 and 10). -/
def Obligations.ResetMeetsInvariant : Prop := State.reset.Inv

/-- A successful `init` leaves every piece of state at the value 10_state.md tabulates: registers, stack, timers,
display, latch and dirty bits zero, `pc = 0x200`, the flag bytes unpacked little-endian, the generator seeded, and
memory holding the program, the font and zeros. The font clause is the spec's own decision D7 (log entry 17). -/
def Obligations.InitSetsEveryPieceOfState : Prop :=
  ∀ (s : State) (program : List Byte) (seed : Seed) (f : PackedFlags),
    program.length ≤ 3584 → s.cfg.wellFormed = true →
    ∃ t, transact (.init program seed f) s = .ok { state := t, status := .ok } ∧
      (∀ r, t.reg r = 0) ∧ t.pc = 0x200 ∧ t.I = 0 ∧ t.sp = 0 ∧ (∀ k, t.stackEntry k = 0) ∧ t.DT = 0 ∧ t.ST = 0 ∧
      (∀ px py, pixel t.fb px py = false) ∧ t.dispDirty = false ∧
      (∀ k : Fin 8, t.flagByte k = f.extractLsb' (8 * k.val) 8) ∧ t.flagsDirty = false ∧ t.keys = 0 ∧ t.wait = none ∧
      t.rng = Config.rngInit seed ∧ t.poisoned = false ∧ t.cfg = s.cfg ∧
      (∀ i (h : i < program.length), t.readByte (BitVec.ofNat 12 (0x200 + i)) = program[i]) ∧
      (∀ k : Fin 80, t.readByte (s.cfg.fontBase + BitVec.ofNat 12 k.val) = s.cfg.fontData.get k) ∧
      (∀ a : Addr, a.toNat < 0x200 ∨ 0x200 + program.length ≤ a.toNat →
        a.toNat < s.cfg.fontBase.toNat ∨ s.cfg.fontBase.toNat + 80 ≤ a.toNat → t.readByte a = 0)

/-- `init` fails with `ProgramTooLong` exactly above 3584 bytes, which is the spec's own reading D27 (log entry 35); an
image of up to 3584 bytes is loaded whole and never wraps below 0x200; an empty image is accepted, leaves memory above
the font zero, and the first step then fails with `IllegalOpcode`. Nothing but the length decides the status
(70_reset_and_hazards.md, Reset). -/
def Obligations.ProgramTooLongAbove3584Bytes : Prop :=
  ∀ (s : State) (seed : Seed) (f : PackedFlags),
    (∀ program : List Byte, 3584 < program.length →
      ∃ t, transact (.init program seed f) s = .ok { state := t, status := .fail .programTooLong }) ∧
    (∀ program : List Byte, program.length ≤ 3584 →
      ∃ t, transact (.init program seed f) s = .ok { state := t, status := .ok } ∧
        (∀ i (h : i < program.length), t.readByte (BitVec.ofNat 12 (0x200 + i)) = program[i]) ∧
        (∀ a : Addr, a.toNat < 0x200 → t.readByte a = resetByte s.cfg a.toNat)) ∧
    (s.cfg.wellFormed = true →
      ∃ t, transact (.init [] seed f) s = .ok { state := t, status := .ok } ∧
        (∀ a : Addr, s.cfg.fontBase.toNat + 80 ≤ a.toNat → t.readByte a = 0) ∧
        fetch16 t t.pc = 0x0000 ∧ step t = .fault .illegalOpcode)

/-- A later `init` does not depend on the state before it: with the same arguments and configuration, a successful one
gives the same state, and the status is the same in every case (70_reset_and_hazards.md, Re-initialisation; the state
after a failed `init` is unspecified, log entry 8). -/
def Obligations.InitForgetsEarlierState : Prop :=
  ∀ (s s' : State) (program : List Byte) (seed : Seed) (f : PackedFlags), s.cfg = s'.cfg →
    (init program seed f s).status = (init program seed f s').status ∧
    (program.length ≤ 3584 → init program seed f s = init program seed f s' ∧
      (init program seed f s).state.rng = Config.rngInit seed)

/-- A failed `init` and power-on leave a poisoned block, and a poisoned block refuses a step, an observation and every
operation but `init`. The refusal is the spec's own decision D30 (log entry 7). -/
def Obligations.PoisonedBlockRefusesAllButInit : Prop :=
  (∀ (s : State) (program : List Byte) (seed : Seed) (f : PackedFlags), 3584 < program.length →
    (init program seed f s).state.poisoned = true) ∧
  (∀ c, (powerOn c).poisoned = true) ∧
  (∀ s : State, s.poisoned = true →
    step s = .refused .poisoned ∧ observe s = .error .poisoned ∧
    (∀ op : Op, op.isInit = false → transact op s = .error .poisoned) ∧
    (∀ (program : List Byte) (seed : Seed) (f : PackedFlags), program.length ≤ 3584 →
      ∃ t, transact (.init program seed f) s = .ok { state := t, status := .ok } ∧ t.poisoned = false))

/-! ### Encoding -/

/-- Decoding an encoded well-formed instruction gives it back, for all 36 and every operand. -/
def Obligations.DecodeOfEncodeIsTheInstruction : Prop :=
  ∀ i : Instr, i.wellFormed = true → decode (encode i) = some i

/-- Where a word decodes, the instruction is well-formed and encodes to that word again: no word has two readings and
no bit of it is dropped. -/
def Obligations.EncodeOfDecodeIsTheWord : Prop :=
  ∀ (w : InstrWord) (i : Instr), decode w = some i → i.wellFormed = true ∧ encode i = w

/-- The decoder and the opcode table agree: a word is the instruction of a row, `(w AND mask) = match`, exactly when it
decodes to an instruction with that row's mnemonic; and no word is the instruction of two rows. The rows of family 8
rest on the spec's own decision D2 (log entry 12). -/
def Obligations.DecodeAgreesWithTheOpcodeTable : Prop :=
  (∀ (w : InstrWord) (row : OpcodeRow), row ∈ opcodeTable →
    (row.holds w = true ↔ ∃ i, decode w = some i ∧ mnemonicOf i = row.mnemonic)) ∧
  (∀ (w : InstrWord) (row row' : OpcodeRow), row ∈ opcodeTable → row' ∈ opcodeTable →
    row.holds w = true → row'.holds w = true → row = row')

/-- The illegal words, family by family. That the patterns are exact is the spec's own decision D17 (log entry 27). -/
def Obligations.IllegalWordsFamilyByFamily : Prop :=
  ∀ w : InstrWord, decode w = none ↔
    (w.extractLsb' 12 4 = 0x0 ∧ w ≠ 0x00E0 ∧ w ≠ 0x00EE) ∨
    (w.extractLsb' 12 4 = 0x5 ∧ w.extractLsb' 0 4 ≠ 0x0) ∨
    (w.extractLsb' 12 4 = 0x8 ∧ w.extractLsb' 0 4 ∈ [0x8#4, 0x9#4, 0xA#4, 0xB#4, 0xC#4, 0xD#4, 0xF#4]) ∨
    (w.extractLsb' 12 4 = 0x9 ∧ w.extractLsb' 0 4 ≠ 0x0) ∨
    (w.extractLsb' 12 4 = 0xE ∧ w.extractLsb' 0 8 ∉ [0x9E#8, 0xA1#8]) ∨
    (w.extractLsb' 12 4 = 0xF ∧ w.extractLsb' 0 8 ∉
      [0x07#8, 0x0A#8, 0x15#8, 0x18#8, 0x1E#8, 0x29#8, 0x33#8, 0x55#8, 0x65#8, 0x75#8, 0x85#8])

/-- Words written out from the spec's encodings and examples decode to the instructions they stand for. -/
def Obligations.SampleWordsDecode : Prop :=
  decodeBytes [0x60, 0x0A, 0x61, 0x05] = .ok (.ldi 0 0x0A, [0x61, 0x05]) ∧
  decodeBytes [0x80, 0x14] = .ok (.add 0 1, []) ∧
  decode 0x00EE = some .ret ∧ decode 0x2300 = some (.call 0x300) ∧ decode 0xA2F0 = some (.seti 0x2F0) ∧
  decode 0xD015 = some (.drw 0 1 5) ∧ decode 0xE19E = some (.skp 1) ∧ decode 0xF875 = some (.savef 8) ∧
  decode 0x0000 = none ∧ decodeBytes [0x60] = .error .truncated

/-! ### The step -/

/-- A step of a block that is neither poisoned nor waiting executes the instruction that the two bytes at `pc` and
`pc + 1` decode to, the byte at `pc` being the high byte. -/
def Obligations.StepRunsTheDecodedInstruction : Prop :=
  ∀ (s : State) (i : Instr), s.poisoned = false → s.wait = none →
    decode (s.readByte s.pc ++ s.readByte (s.pc + 1)) = some i → step s = exec i s

/-- R93: a step on a word that matches no instruction fails with `IllegalOpcode` and writes nothing, and every later
step fails the same way, whatever else the host does, until an `init`. -/
def Obligations.IllegalWordFailsAndFailsAgain : Prop :=
  ∀ s : State, s.poisoned = false → s.wait = none → decode (s.readByte s.pc ++ s.readByte (s.pc + 1)) = none →
    step s = .fault .illegalOpcode ∧
    transact .step s = .ok { state := s, status := .fail .illegalOpcode } ∧
    ∀ ops : List Op, (∀ op ∈ ops, op.isInit = false) →
      ∃ t, runOps ops s = .ok t ∧ t.pc = s.pc ∧ (∀ a, t.readByte a = s.readByte a) ∧
        transact .step t = .ok { state := t, status := .fail .illegalOpcode }

/-- A step while the block waits for a key does nothing and returns `ok`. The status is the spec's own decision D14
(log entry 24). -/
def Obligations.GatedStepDoesNothing : Prop :=
  ∀ (s : State) (r : Reg), s.poisoned = false → s.wait = some r →
    step s = .next s ∧ transact .step s = .ok { state := s, status := .ok }

/-- A step returns `ok` when it executed and committed an instruction or was gated, and `fail` with one error code
otherwise; a failed step changes no state, and after it every later step fails with the same code, whatever other
operations the host issues, until the next `init`. The status of a gated step and that no failed step changes any state
are the spec's own decisions D14 and D19 (log entries 24 and 29). -/
def Obligations.FailedStepRepeatsUntilInit : Prop :=
  (∀ s t : State, step s = .next t → transact .step s = .ok { state := t, status := .ok }) ∧
  (∀ (s : State) (r : Reg), s.poisoned = false → s.wait = some r →
    transact .step s = .ok { state := s, status := .ok }) ∧
  (∀ (s : State) (e : Fault), step s = .fault e →
    transact .step s = .ok { state := s, status := .fail e } ∧
    ∀ ops : List Op, (∀ op ∈ ops, op.isInit = false) →
      ∃ t, runOps ops s = .ok t ∧ transact .step t = .ok { state := t, status := .fail e })

/-- A key wait ends only by a `set_keys` that presents a press: over any schedule without a press and without `init`,
the block goes on waiting, its steps execute nothing, and nothing changes but the timers, the latch and the dirty
bits. -/
def Obligations.KeyWaitEndsOnlyByPress : Prop :=
  ∀ (s : State) (r : Reg) (ops : List Op), s.poisoned = false → s.wait = some r → NoPress s.keys ops →
    ∃ t, runOps ops s = .ok t ∧ t.wait = some r ∧ KeepsAllBut [.delay, .sound, .keys, .dispDirty, .flagsDirty] s t

/-- Every step keeps the invariant: memory stays in its canonical form and the configuration stays the one it was. -/
def Obligations.StepKeepsTheInvariant : Prop :=
  ∀ s t : State, s.Inv → step s = .next t → t.Inv ∧ t.cfg = s.cfg ∧ t.poisoned = false

/-- Every schedule of operations, `init` included, keeps the invariant, also through failed operations. That a failed
`init` too leaves memory in its canonical form and the configuration as it was is the model's own choice for a state
that R203 calls unspecified (log entry 8, the spec's decision D30). -/
def Obligations.OperationsKeepTheInvariant : Prop :=
  ∀ (ops : List Op) (s t : State), s.Inv → runOps ops s = .ok t → t.Inv ∧ t.cfg = s.cfg

/-- R181: which operations and instructions can fail, and with what. Of the instructions `00EE`, `2NNN`, `FX75` and
`FX85` alone, each with its own error; every other one answers a next state from every state; `init` fails with
`ProgramTooLong` only; `step` fails with `IllegalOpcode` on an undecodable word alone, with the other three on their
instructions alone, and never while gated; and the other operations never fail. -/
def Obligations.OnlyTheseOperationsFail : Prop :=
  (∀ (i : Instr) (s : State) (e : Fault), exec i s = .fault e →
    (i = .ret ∧ e = .badReturn) ∨ (∃ nnn, i = .call nnn ∧ e = .stackOverflow) ∨
    (∃ x, (i = .savef x ∨ i = .loadf x) ∧ e = .flagOverflow)) ∧
  (∀ (i : Instr) (s : State), i ≠ .ret → (∀ nnn, i ≠ .call nnn) → (∀ x, i ≠ .savef x) → (∀ x, i ≠ .loadf x) →
    ∃ t, exec i s = .next t) ∧
  (∀ (s : State) (e : Fault), step s = .fault e → s.wait = none ∧
    ((e = .illegalOpcode ∧ decode (fetch16 s s.pc) = none) ∨
     (e = .stackOverflow ∧ ∃ nnn, decode (fetch16 s s.pc) = some (.call nnn)) ∨
     (e = .badReturn ∧ decode (fetch16 s s.pc) = some .ret) ∨
     (e = .flagOverflow ∧ ∃ x, decode (fetch16 s s.pc) = some (.savef x) ∨
       decode (fetch16 s s.pc) = some (.loadf x)))) ∧
  (∀ (program : List Byte) (seed : Seed) (f : PackedFlags) (s : State) (e : Fault),
    (init program seed f s).status = .fail e → e = .programTooLong) ∧
  (∀ (op : Op) (s : State), s.poisoned = false → op ≠ .step → op.isInit = false →
    ∃ t, transact op s = .ok { state := t, status := .ok }) ∧
  (∀ s : State, s.poisoned = false → observe s = .ok (outputsOf s))

/-- The program counter after every instruction: the target of a jump or call, the popped entry, two or four further
for a skip, two further for every other instruction, `FX0A` included. Wrapping is the spec's own decision D15, the
advance of `FX0A` D13, the low nibble that `EX9E` and `EXA1` take as the key D12, and which entry `00EE` takes D26 (log
entries 25, 23, 22 and 34). -/
def Obligations.ProgramCounterAfterEveryInstruction : Prop :=
  ∀ (i : Instr) (s t : State), exec i s = .next t →
    match i with
    | .jp nnn => t.pc = nnn
    | .call nnn => t.pc = nnn
    | .jpv0 nnn => t.pc = nnn + (s.reg 0).setWidth 12
    | .ret => ∃ k : Fin 16, s.sp.val = k.val + 1 ∧ t.pc = s.stackEntry k
    | .seqi x nn => t.pc = if s.reg x = nn then s.pc + 4 else s.pc + 2
    | .snei x nn => t.pc = if s.reg x ≠ nn then s.pc + 4 else s.pc + 2
    | .seq x y => t.pc = if s.reg x = s.reg y then s.pc + 4 else s.pc + 2
    | .sne x y => t.pc = if s.reg x ≠ s.reg y then s.pc + 4 else s.pc + 2
    | .skp x => t.pc = if keyPressed s x = true then s.pc + 4 else s.pc + 2
    | .sknp x => t.pc = if keyPressed s x = true then s.pc + 2 else s.pc + 4
    | _ => t.pc = s.pc + 2

/-- Which instruction can change which piece of state: memory only `FX33` and `FX55`; `I` only `ANNN`, `FX1E`, `FX29`;
the stack only `2NNN`, its pointer also `00EE`; `DT` only `FX15`, `ST` only `FX18`; the display and its dirty bit only
`00E0` and `DXYN`; the flag store and its dirty bit only `FX75`; the wait only `FX0A`; the generator only `CXNN`; the
key latch, the poisoned condition and the configuration none (10_state.md sections 5, 6, 8 and 9; that the configuration
is a field of State is log entry 1). -/
def Obligations.OnlyNamedInstructionsChangeEachPiece : Prop :=
  ∀ (i : Instr) (s t : State), exec i s = .next t →
    ((∀ x, i ≠ .bcd x) → (∀ x, i ≠ .store x) → Part.same .mem s t) ∧
    ((∀ a, i ≠ .seti a) → (∀ x, i ≠ .addix x) → (∀ x, i ≠ .font x) → Part.same .index s t) ∧
    ((∀ a, i ≠ .call a) → Part.same .stack s t ∧ (i ≠ .ret → Part.same .sp s t)) ∧
    ((∀ x, i ≠ .setdt x) → Part.same .delay s t) ∧ ((∀ x, i ≠ .setst x) → Part.same .sound s t) ∧
    (i ≠ .cls → (∀ x y n, i ≠ .drw x y n) → Part.same .display s t ∧ Part.same .dispDirty s t) ∧
    ((∀ x, i ≠ .savef x) → Part.same .flagStore s t ∧ Part.same .flagsDirty s t) ∧
    ((∀ x, i ≠ .waitk x) → Part.same .wait s t) ∧ ((∀ x nn, i ≠ .rnd x nn) → Part.same .rng s t) ∧
    Part.same .keys s t ∧ Part.same .poisoned s t ∧ Part.same .cfg s t

/-- Which registers an instruction can change: its `x`, or `V[0]` to `V[x]` for `FX65` and `FX85`, and `VF` for the six
flag-writing instructions; every other instruction changes none (10_state.md, General registers and Flags, and the
instructions' own rules). That `8XY1`, `8XY2`, `8XY3` and `FX1E` leave `VF` alone is the spec's own decisions D6 and D25
(log entry 16). -/
def Obligations.OnlyNamedRegistersChange : Prop :=
  ∀ (i : Instr) (s t : State) (r : Reg), exec i s = .next t → t.reg r ≠ s.reg r →
    match i with
    | .ldi x _ | .addi x _ | .rnd x _ => r = x
    | .mov x _ | .or x _ | .and x _ | .xor x _ => r = x
    | .add x _ | .sub x _ | .shr x _ | .subn x _ | .shl x _ => r = x ∨ r = vf
    | .drw _ _ _ => r = vf
    | .getdt x => r = x
    | .load x | .loadf x => r.val ≤ x.val
    | _ => False

/-- The dirty bits after an instruction: `00E0` and `DXYN` set the display's, `FX75` the flag store's, and no
instruction clears either; so a changed pixel or flag byte always leaves its bit set. Setting it without a change is the
spec's own decision D10 (log entry 20). -/
def Obligations.DirtyBitsAfterEveryInstruction : Prop :=
  ∀ (i : Instr) (s t : State), exec i s = .next t →
    (t.dispDirty = true ↔ s.dispDirty = true ∨ i = .cls ∨ ∃ x y n, i = .drw x y n) ∧
    (t.flagsDirty = true ↔ s.flagsDirty = true ∨ ∃ x, i = .savef x) ∧
    (¬Part.same .display s t → t.dispDirty = true) ∧ (¬Part.same .flagStore s t → t.flagsDirty = true)

/-- R167 and R170: an acknowledgment clears its dirty bit and changes nothing else, never fails, and no other operation
but `init` clears the bit. -/
def Obligations.OnlyAcknowledgmentsClearDirtyBits : Prop :=
  (∀ s : State, s.poisoned = false →
    (∃ t, transact .clearDisplayDirty s = .ok { state := t, status := .ok } ∧ t.dispDirty = false ∧
      KeepsAllBut [.dispDirty] s t) ∧
    (∃ t, transact .clearFlagsDirty s = .ok { state := t, status := .ok } ∧ t.flagsDirty = false ∧
      KeepsAllBut [.flagsDirty] s t)) ∧
  (∀ (op : Op) (s : State) (r : Response), transact op s = .ok r → op.isInit = false →
    (op ≠ .clearDisplayDirty → s.dispDirty = true → r.state.dispDirty = true) ∧
    (op ≠ .clearFlagsDirty → s.flagsDirty = true → r.state.flagsDirty = true))

/-- A step never reads the dirty bits: two blocks that differ in them alone answer alike and still differ in them alone
(40_step_dispatch.md, What a step may read and write). -/
def Obligations.StepNeverReadsDirtyBits : Prop :=
  ∀ (s : State) (b c : Bool),
    AgreeBut [.dispDirty, .flagsDirty] (step s) (step ((s.setDispDirty b).setFlagsDirty c))

/-- The generator is consumed by `CXNN` alone: every other instruction leaves it as it was, and answers alike from two
states that differ in it alone. -/
def Obligations.OnlyRndConsumesTheGenerator : Prop :=
  ∀ (i : Instr) (s : State) (g : Config.RngState), (∀ x nn, i ≠ .rnd x nn) →
    AgreeBut [.rng] (exec i s) (exec i (s.setRng g)) ∧ ∀ t, exec i s = .next t → t.rng = s.rng

/-! ### Control transfer -/

/-- `00EE` with an empty stack fails with `BadReturn`; else `sp` goes down by one and `pc` becomes exactly the entry
released; nothing else changes. Which entry that is is the spec's own decision D26 (log entry 34). -/
def Obligations.RetPopsOrFailsWithBadReturn : Prop :=
  ∀ s : State,
    (s.sp.val = 0 → exec .ret s = .fault .badReturn) ∧
    (∀ k : Fin 16, s.sp.val = k.val + 1 →
      ∃ t, exec .ret s = .next t ∧ t.sp.val = k.val ∧ t.pc = s.stackEntry k ∧ KeepsAllBut [.sp, .pc] s t)

/-- `2NNN` with a full stack fails with `StackOverflow`; else the address after the call goes into `stack[sp]`, `sp`
goes up by one, `pc` becomes `nnn`, and nothing else changes. The value pushed and the place are the spec's own decision
D26 (log entry 34). -/
def Obligations.CallPushesOrFailsWithStackOverflow : Prop :=
  ∀ (nnn : Addr) (s : State),
    (s.sp.val = 16 → exec (.call nnn) s = .fault .stackOverflow) ∧
    (∀ k : Fin 16, s.sp.val = k.val →
      ∃ t, exec (.call nnn) s = .next t ∧ t.stackEntry k = s.pc + 2 ∧ (∀ j, j ≠ k → t.stackEntry j = s.stackEntry j) ∧
        t.sp.val = k.val + 1 ∧ t.pc = nnn ∧ KeepsAllBut [.stack, .sp, .pc] s t)

/-- A return right after a call comes back to the instruction after the call, with the stack pointer and every entry in
use as they were (90_conflicts.md C10; the spec's own decision D26, log entry 34). -/
def Obligations.ReturnComesBackBehindTheCall : Prop :=
  ∀ (nnn : Addr) (s : State), s.sp.val < 16 →
    ∃ t u, exec (.call nnn) s = .next t ∧ exec .ret t = .next u ∧ u.pc = s.pc + 2 ∧ u.sp = s.sp ∧
      (∀ k : Fin 16, k.val < s.sp.val → u.stackEntry k = s.stackEntry k) ∧ KeepsAllBut [.pc, .stack] s u

/-- From an empty stack sixteen calls in a row succeed, to whatever targets, and the seventeenth fails with
`StackOverflow` (95_test_vectors.md S2). -/
def Obligations.SixteenCallsSucceedTheSeventeenthFails : Prop :=
  ∀ (s : State) (targets : List Addr), s.sp.val = 0 → targets.length = 16 →
    ∃ t, callAll targets s = .next t ∧ t.sp.val = 16 ∧ KeepsAllBut [.stack, .sp, .pc] s t ∧
      ∀ nnn, exec (.call nnn) t = .fault .stackOverflow

/-- R101: `1NNN` sets `pc` to `nnn`, any address, and changes nothing else. -/
def Obligations.JumpSetsThePc : Prop :=
  ∀ (nnn : Addr) (s : State), ∃ t, exec (.jp nnn) s = .next t ∧ t.pc = nnn ∧ KeepsAllBut [.pc] s t

/-- `BNNN` sets `pc` to `nnn + V[0]` modulo 4096 and changes nothing else. The wrapping is the spec's own decision D15
(log entry 25). -/
def Obligations.JumpWithOffsetAddsV0 : Prop :=
  ∀ (nnn : Addr) (s : State), ∃ t, exec (.jpv0 nnn) s = .next t ∧
    t.pc.toNat = (nnn.toNat + (s.reg 0).toNat) % 4096 ∧ KeepsAllBut [.pc] s t

/-- R103 and R104: the skips that compare a register with an immediate; nothing but `pc` changes. -/
def Obligations.SkipsThatCompareWithAnImmediate : Prop :=
  ∀ (x : Reg) (nn : Byte) (s : State),
    (∃ t, exec (.seqi x nn) s = .next t ∧ t.pc = (if s.reg x = nn then s.pc + 4 else s.pc + 2) ∧
      KeepsAllBut [.pc] s t) ∧
    (∃ t, exec (.snei x nn) s = .next t ∧ t.pc = (if s.reg x = nn then s.pc + 2 else s.pc + 4) ∧
      KeepsAllBut [.pc] s t)

/-- R105 and R106: the skips that compare two registers; nothing but `pc` changes. -/
def Obligations.SkipsThatCompareRegisters : Prop :=
  ∀ (x y : Reg) (s : State),
    (∃ t, exec (.seq x y) s = .next t ∧ t.pc = (if s.reg x = s.reg y then s.pc + 4 else s.pc + 2) ∧
      KeepsAllBut [.pc] s t) ∧
    (∃ t, exec (.sne x y) s = .next t ∧ t.pc = (if s.reg x = s.reg y then s.pc + 2 else s.pc + 4) ∧
      KeepsAllBut [.pc] s t)

/-! ### Load, arithmetic, logic, random -/

/-- R110, R111 and R112: load immediate, add immediate modulo 256 with the carry discarded, assign; only register `x`
and `pc` change. -/
def Obligations.LoadAddAndAssign : Prop :=
  ∀ (x y : Reg) (nn : Byte) (s : State),
    (∃ t, exec (.ldi x nn) s = .next t ∧ WritesReg x nn s t ∧ t.pc = s.pc + 2 ∧ KeepsAllBut [.regs, .pc] s t) ∧
    (∃ t v, exec (.addi x nn) s = .next t ∧ v.toNat = ((s.reg x).toNat + nn.toNat) % 256 ∧ WritesReg x v s t ∧
      t.pc = s.pc + 2 ∧ KeepsAllBut [.regs, .pc] s t) ∧
    (∃ t, exec (.mov x y) s = .next t ∧ WritesReg x (s.reg y) s t ∧ t.pc = s.pc + 2 ∧ KeepsAllBut [.regs, .pc] s t)

/-- The logic instructions work bit by bit on the two registers, and write no register but `x`: `VF` is left alone
unless `x` is 15, which is the spec's own decision D6 (log entry 16). -/
def Obligations.LogicWorksBitByBitAndLeavesVfAlone : Prop :=
  ∀ (x y : Reg) (s : State),
    (∃ t v, exec (.or x y) s = .next t ∧
      (∀ k < 8, v.getLsbD k = ((s.reg x).getLsbD k || (s.reg y).getLsbD k)) ∧ WritesReg x v s t ∧
      t.pc = s.pc + 2 ∧ KeepsAllBut [.regs, .pc] s t) ∧
    (∃ t v, exec (.and x y) s = .next t ∧
      (∀ k < 8, v.getLsbD k = ((s.reg x).getLsbD k && (s.reg y).getLsbD k)) ∧ WritesReg x v s t ∧
      t.pc = s.pc + 2 ∧ KeepsAllBut [.regs, .pc] s t) ∧
    (∃ t v, exec (.xor x y) s = .next t ∧
      (∀ k < 8, v.getLsbD k = ((s.reg x).getLsbD k ^^ (s.reg y).getLsbD k)) ∧ WritesReg x v s t ∧
      t.pc = s.pc + 2 ∧ KeepsAllBut [.regs, .pc] s t)

/-- `8XY4`: the sum modulo 256 and the carry out, 1 exactly when the true sum exceeds 255; with `x = 15` the flag
remains, which is the spec's own decision D5 (log entry 15). -/
def Obligations.AddSetsSumAndCarry : Prop :=
  ∀ (x y : Reg) (s : State), ∃ t v, exec (.add x y) s = .next t ∧
    v.toNat = ((s.reg x).toNat + (s.reg y).toNat) % 256 ∧
    WritesRegAndFlag x v (if 255 < (s.reg x).toNat + (s.reg y).toNat then 1 else 0) s t ∧
    t.pc = s.pc + 2 ∧ KeepsAllBut [.regs, .pc] s t

/-- `8XY5` and `8XY7`: the difference modulo 256 and the flag, 1 exactly when there is no borrow; the sense of the flag
is the spec's own decision D4, and with `x = 15` the flag remains by D5 (log entries 14 and 15). -/
def Obligations.SubtractSetsDifferenceAndNoBorrow : Prop :=
  ∀ (x y : Reg) (s : State),
    (∃ t v, exec (.sub x y) s = .next t ∧ v.toNat = (256 + (s.reg x).toNat - (s.reg y).toNat) % 256 ∧
      WritesRegAndFlag x v (if (s.reg y).toNat ≤ (s.reg x).toNat then 1 else 0) s t ∧
      t.pc = s.pc + 2 ∧ KeepsAllBut [.regs, .pc] s t) ∧
    (∃ t v, exec (.subn x y) s = .next t ∧ v.toNat = (256 + (s.reg y).toNat - (s.reg x).toNat) % 256 ∧
      WritesRegAndFlag x v (if (s.reg x).toNat ≤ (s.reg y).toNat then 1 else 0) s t ∧
      t.pc = s.pc + 2 ∧ KeepsAllBut [.regs, .pc] s t)

/-- `8XY6` and `8XYE`: the source, `V[x]` or `V[y]` as the configuration says, halved or doubled modulo 256, and the bit
moved out as the flag. The parameter is the spec's own (D3), and with `x = 15` the flag remains by D5 (log entries 13
and 15). -/
def Obligations.ShiftsSetResultAndBitOut : Prop :=
  ∀ (x y : Reg) (s : State), ∃ v : Byte,
    (s.cfg.shiftSrc = .vx → v = s.reg x) ∧ (s.cfg.shiftSrc = .vy → v = s.reg y) ∧
    (∃ t q, exec (.shr x y) s = .next t ∧ q.toNat = v.toNat / 2 ∧
      WritesRegAndFlag x q (if v.toNat % 2 = 1 then 1 else 0) s t ∧ t.pc = s.pc + 2 ∧
      KeepsAllBut [.regs, .pc] s t) ∧
    (∃ t q, exec (.shl x y) s = .next t ∧ q.toNat = v.toNat * 2 % 256 ∧
      WritesRegAndFlag x q (if 128 ≤ v.toNat then 1 else 0) s t ∧ t.pc = s.pc + 2 ∧
      KeepsAllBut [.regs, .pc] s t)

/-- `CXNN`: the generator advances by exactly one step, and the byte it delivers, whatever it is, ANDed with `nn` goes
to `V[x]`. The generator is a free value (D22, log entry 2). -/
def Obligations.RndMasksOneByteOfTheGenerator : Prop :=
  ∀ (x : Reg) (nn : Byte) (s : State), ∃ t, exec (.rnd x nn) s = .next t ∧
    t.rng = (Config.rngStep s.rng).1 ∧ WritesReg x ((Config.rngStep s.rng).2 &&& nn) s t ∧ t.pc = s.pc + 2 ∧
    KeepsAllBut [.regs, .rng, .pc] s t

/-! ### Index and memory -/

/-- `ANNN` sets `I`; `FX1E` adds `V[x]` to it modulo 4096 and writes no register, `VF` included. The wrapping and that
`VF` is left alone are the spec's own decisions D15 and D25 (log entries 25 and 16). -/
def Obligations.SetAndAddToTheIndex : Prop :=
  ∀ (nnn : Addr) (x : Reg) (s : State),
    (∃ t, exec (.seti nnn) s = .next t ∧ t.I = nnn ∧ t.pc = s.pc + 2 ∧ KeepsAllBut [.index, .pc] s t) ∧
    (∃ t, exec (.addix x) s = .next t ∧ t.I.toNat = (s.I.toNat + (s.reg x).toNat) % 4096 ∧ t.pc = s.pc + 2 ∧
      KeepsAllBut [.index, .pc] s t)

/-- `FX29` sets `I` to the glyph of the low nibble of `V[x]`, five bytes a glyph from FONT_BASE on, and changes nothing
else. The font is the spec's own decision D7 (log entry 17). -/
def Obligations.FontPointsAtTheGlyph : Prop :=
  ∀ (x : Reg) (s : State), ∃ t, exec (.font x) s = .next t ∧
    t.I.toNat = (s.cfg.fontBase.toNat + 5 * ((s.reg x).toNat % 16)) % 4096 ∧ t.pc = s.pc + 2 ∧
    KeepsAllBut [.index, .pc] s t

/-- `FX33` stores the hundreds, tens and ones digit of `V[x]` at `I`, `I + 1` and `I + 2`, and every other byte of
memory reads as before. The digit order is the spec's own decision D24 (log entry 33). -/
def Obligations.BcdStoresTheDecimalDigits : Prop :=
  ∀ (x : Reg) (s : State), s.Inv → ∃ t, exec (.bcd x) s = .next t ∧
    (t.readByte (indexed s 0)).toNat = (s.reg x).toNat / 100 ∧
    (t.readByte (indexed s 1)).toNat = (s.reg x).toNat / 10 % 10 ∧
    (t.readByte (indexed s 2)).toNat = (s.reg x).toNat % 10 ∧
    (∀ a, a ≠ indexed s 0 → a ≠ indexed s 1 → a ≠ indexed s 2 → t.readByte a = s.readByte a) ∧
    t.pc = s.pc + 2 ∧ KeepsAllBut [.mem, .pc] s t

/-- R129: `FX55` stores `V[0]` to `V[x]` at `I` to `I + x`, each address modulo 4096; every other byte of memory reads
as before and `I` is unchanged. -/
def Obligations.StoreWritesTheRegisterRun : Prop :=
  ∀ (x : Reg) (s : State), s.Inv → ∃ t, exec (.store x) s = .next t ∧
    (∀ i : Reg, i.val ≤ x.val → t.readByte (s.I + BitVec.ofNat 12 i.val) = s.reg i) ∧
    (∀ a, (∀ i : Reg, i.val ≤ x.val → a ≠ s.I + BitVec.ofNat 12 i.val) → t.readByte a = s.readByte a) ∧
    t.pc = s.pc + 2 ∧ KeepsAllBut [.mem, .pc] s t

/-- R130: `FX65` loads `V[0]` to `V[x]` from `I` to `I + x`, each address modulo 4096; the registers above `x`, memory
and `I` are unchanged. -/
def Obligations.LoadReadsTheRegisterRun : Prop :=
  ∀ (x : Reg) (s : State), ∃ t, exec (.load x) s = .next t ∧
    (∀ i : Reg, i.val ≤ x.val → t.reg i = s.readByte (s.I + BitVec.ofNat 12 i.val)) ∧
    (∀ i : Reg, x.val < i.val → t.reg i = s.reg i) ∧
    t.pc = s.pc + 2 ∧ KeepsAllBut [.regs, .pc] s t

/-- A load after a store, whatever the registers hold in between, brings `V[0]` to `V[x]` back (43_index_memory.md,
STORE and LOAD together). -/
def Obligations.LoadBringsBackWhatStoreWrote : Prop :=
  ∀ (x : Reg) (s : State) (between : Vector Byte 16), s.Inv → ∃ t u, exec (.store x) s = .next t ∧
    exec (.load x) { t with V := between } = .next u ∧
    (∀ i : Reg, i.val ≤ x.val → u.reg i = s.reg i) ∧ (∀ i : Reg, x.val < i.val → u.reg i = between.get i)

/-- Self-modifying code is immediate: a `FX55` that writes the two bytes after itself makes the next step execute the
instruction they spell (20_memory.md, Instruction-fetch coherence). -/
def Obligations.StoredCodeIsWhatTheNextStepRuns : Prop :=
  ∀ (x : Reg) (s : State) (i : Instr), s.Inv → s.poisoned = false → s.wait = none → s.I = s.pc + 2 → 1 ≤ x.val →
    decode (s.reg 0 ++ s.reg 1) = some i →
    ∃ t, exec (.store x) s = .next t ∧ step t = exec i t

/-! ### Display -/

/-- `00E0` makes every pixel dark and sets the display dirty bit, also when nothing changes, and writes no register. The
unconditional dirty bit is the spec's own decision D10 (log entry 20). -/
def Obligations.ClsClearsTheDisplay : Prop :=
  ∀ s : State, ∃ t, exec .cls s = .next t ∧ (∀ px py, pixel t.fb px py = false) ∧ t.dispDirty = true ∧
    t.pc = s.pc + 2 ∧ KeepsAllBut [.display, .dispDirty, .pc] s t

/-- `DXYN`: exactly the pixels that the sprite covers, with every coordinate wrapped, are inverted; `VF` becomes 1 when
a covered pixel was lit and 0 otherwise; the display dirty bit is set; nothing else changes. The sprite's layout, the
wrapping of every pixel, the empty sprite and the unconditional dirty bit are the spec's own decisions D8, D9, D11 and
D10 (log entries 18, 19, 21, 20). -/
def Obligations.DrwInvertsExactlyTheCoveredPixels : Prop :=
  ∀ (x y : Reg) (n : Nat) (s : State), n ≤ 15 → ∃ t, exec (.drw x y n) s = .next t ∧
    (∀ px py, pixel t.fb px py = true ↔ ¬(pixel s.fb px py = true ↔ SpriteCovers s (s.reg x) (s.reg y) n px py)) ∧
    ((∃ px py, SpriteCovers s (s.reg x) (s.reg y) n px py ∧ pixel s.fb px py = true) → t.reg vf = 1) ∧
    ((∀ px py, SpriteCovers s (s.reg x) (s.reg y) n px py → pixel s.fb px py = false) → t.reg vf = 0) ∧
    (∀ r, r ≠ vf → t.reg r = s.reg r) ∧ t.dispDirty = true ∧ t.pc = s.pc + 2 ∧
    KeepsAllBut [.display, .regs, .dispDirty, .pc] s t

/-- Drawing the same sprite twice at the same place brings every pixel back; where the covered pixels are dark, the
first draw sets `VF = 0` and the second, when the sprite covers a pixel at all, `VF = 1` (95_test_vectors.md S4). The
position registers are not `VF`, which a draw overwrites: with `VF` the second draw would be elsewhere, and the single
draw of that form is in `DrwInvertsExactlyTheCoveredPixels`. Which pixels a sprite covers rests on the spec's own
decisions D8 and D9 (log entries 18 and 19). -/
def Obligations.DrawingTwiceRestoresTheDisplay : Prop :=
  ∀ (x y : Reg) (n : Nat) (s : State), n ≤ 15 → x ≠ vf → y ≠ vf →
    ∃ t u, exec (.drw x y n) s = .next t ∧ exec (.drw x y n) t = .next u ∧
      (∀ px py, pixel u.fb px py = pixel s.fb px py) ∧
      ((∀ px py, SpriteCovers s (s.reg x) (s.reg y) n px py → pixel s.fb px py = false) →
        t.reg vf = 0 ∧ ((∃ px py, SpriteCovers s (s.reg x) (s.reg y) n px py) → u.reg vf = 1))

/-! ### Keys and timers -/

/-- `EX9E` and `EXA1` skip on the key numbered by the low nibble of `V[x]` being down or up in the latch; nothing but
`pc` changes. The low nibble is the spec's own decision D12 (log entry 22). -/
def Obligations.KeySkipsReadTheLatch : Prop :=
  ∀ (x : Reg) (s : State),
    (∃ t, exec (.skp x) s = .next t ∧
      t.pc = (if s.keys.getLsbD ((s.reg x).toNat % 16) = true then s.pc + 4 else s.pc + 2) ∧ KeepsAllBut [.pc] s t) ∧
    (∃ t, exec (.sknp x) s = .next t ∧
      t.pc = (if s.keys.getLsbD ((s.reg x).toNat % 16) = true then s.pc + 2 else s.pc + 4) ∧ KeepsAllBut [.pc] s t)

/-- R147 and R150: `FX07` reads `DT` without changing it; `FX18` sets `ST`. -/
def Obligations.ReadDelayAndSetSound : Prop :=
  ∀ (x : Reg) (s : State),
    (∃ t, exec (.getdt x) s = .next t ∧ WritesReg x s.DT s t ∧ t.pc = s.pc + 2 ∧ KeepsAllBut [.regs, .pc] s t) ∧
    (∃ t, exec (.setst x) s = .next t ∧ t.ST = s.reg x ∧ t.pc = s.pc + 2 ∧ KeepsAllBut [.sound, .pc] s t)

/-- R149: `FX15` sets `DT` to `V[x]`, and from there exactly that many ticks bring it to 0 and further ones keep it
there. -/
def Obligations.DelayTimerCountsDownByTicks : Prop :=
  ∀ (x : Reg) (s : State), ∃ t, exec (.setdt x) s = .next t ∧ t.DT = s.reg x ∧ t.pc = s.pc + 2 ∧
    KeepsAllBut [.delay, .pc] s t ∧ ∀ k, (ticks k t).DT.toNat = (s.reg x).toNat - k

/-- `FX0A` enters the wait for register `x`, advances `pc`, and changes nothing else: a key already held does not end
it. The advance is the spec's own decision D13 (log entry 23). -/
def Obligations.WaitkEntersTheWait : Prop :=
  ∀ (x : Reg) (s : State), ∃ t, exec (.waitk x) s = .next t ∧ t.wait = some x ∧ t.pc = s.pc + 2 ∧
    waitingQ t = true ∧ KeepsAllBut [.wait, .pc] s t

/-- R163: `tick` takes each timer down by one, floored at 0, and touches nothing else, waiting or not. -/
def Obligations.TickTakesBothTimersDown : Prop :=
  ∀ s : State, s.poisoned = false → ∃ t, transact .tick s = .ok { state := t, status := .ok } ∧
    t.DT.toNat = s.DT.toNat - 1 ∧ t.ST.toNat = s.ST.toNat - 1 ∧ KeepsAllBut [.delay, .sound] s t

/-- `set_keys` overwrites the latch; while waiting, the lowest key that is newly down goes to the waiting register and
ends the wait; otherwise nothing else changes. That `set_keys` captures the key, and that the latch `init` leaves counts
as the earlier mask, are the spec's own decisions D13 and D32 (log entry 23). -/
def Obligations.SetKeysCapturesTheLowestPress : Prop :=
  ∀ (mask : KeyMask) (s : State), s.poisoned = false →
    ∃ t, transact (.setKeys mask) s = .ok { state := t, status := .ok } ∧ t.keys = mask ∧
      (s.wait = none ∨ mask &&& ~~~s.keys = 0 → KeepsAllBut [.keys] s t) ∧
      (∀ (r k : Reg), s.wait = some r → mask.getLsbD k.val = true → s.keys.getLsbD k.val = false →
        (∀ j : Reg, j.val < k.val → mask.getLsbD j.val = true → s.keys.getLsbD j.val = true) →
        t.wait = none ∧ WritesReg r (BitVec.ofNat 8 k.val) s t ∧ KeepsAllBut [.keys, .wait, .regs] s t)

/-! ### Flag store -/

/-- `FX75` and `FX85` with `x` 8 to 15 fail with `FlagOverflow` whatever the state, a step on such a word leaves the
state as it was, and with `x` 0 to 7 both succeed (46_flag_store.md, Overflow guard). That the failed step leaves the
whole state, `pc` included, is the spec's own decision D19 (log entry 29). -/
def Obligations.FlagOverflowExactlyAboveSeven : Prop :=
  ∀ (x : Reg) (s : State),
    (7 < x.val → exec (.savef x) s = .fault .flagOverflow ∧ exec (.loadf x) s = .fault .flagOverflow) ∧
    (x.val ≤ 7 → (∃ t, exec (.savef x) s = .next t) ∧ (∃ t, exec (.loadf x) s = .next t)) ∧
    (7 < x.val → s.poisoned = false → s.wait = none →
      decode (fetch16 s s.pc) = some (.savef x) ∨ decode (fetch16 s s.pc) = some (.loadf x) →
      transact .step s = .ok { state := s, status := .fail .flagOverflow })

/-- R155: `FX75` with `x` up to 7 copies `V[0]` to `V[x]` into the flag store, keeps the flag bytes above, and sets the
flags dirty bit; with `x` above 7 it fails with `FlagOverflow`. -/
def Obligations.SavefFillsTheFlagStore : Prop :=
  ∀ (x : Reg) (s : State),
    (7 < x.val → exec (.savef x) s = .fault .flagOverflow) ∧
    (x.val ≤ 7 → ∃ t, exec (.savef x) s = .next t ∧
      (∀ (k : Fin 8) (r : Reg), r.val = k.val → k.val ≤ x.val → t.flagByte k = s.reg r) ∧
      (∀ k : Fin 8, x.val < k.val → t.flagByte k = s.flagByte k) ∧ t.flagsDirty = true ∧ t.pc = s.pc + 2 ∧
      KeepsAllBut [.flagStore, .flagsDirty, .pc] s t)

/-- R156: `FX85` with `x` up to 7 copies `flag[0]` to `flag[x]` into `V[0]` to `V[x]`, keeps the registers above, the
flag store and its dirty bit; with `x` above 7 it fails with `FlagOverflow`. -/
def Obligations.LoadfReadsTheFlagStore : Prop :=
  ∀ (x : Reg) (s : State),
    (7 < x.val → exec (.loadf x) s = .fault .flagOverflow) ∧
    (x.val ≤ 7 → ∃ t, exec (.loadf x) s = .next t ∧
      (∀ (k : Fin 8) (r : Reg), r.val = k.val → k.val ≤ x.val → t.reg r = s.flagByte k) ∧
      (∀ r : Reg, x.val < r.val → t.reg r = s.reg r) ∧ t.pc = s.pc + 2 ∧ KeepsAllBut [.regs, .pc] s t)

/-! ### Outputs -/

/-- R165, R166, R168, R169 and R173: an observation shows whether the block waits, the dirty bits, the display buffer
bit by bit and `pc` with four zero bits above it; `waiting_q` becomes 1 with `FX0A` and 0 with the press. -/
def Obligations.OutputsShowTheState : Prop :=
  (∀ s : State, s.poisoned = false → ∃ o, observe s = .ok o ∧
    (o.waitingQ = true ↔ s.wait ≠ none) ∧ o.dispDirtyQ = s.dispDirty ∧ o.flagsDirtyQ = s.flagsDirty ∧
    (∀ (px : Fin 64) (py : Fin 32), ∃ k : Fin 256, k.val = (64 * py.val + px.val) / 8 ∧
      (o.dispQ.get k).getLsbD ((64 * py.val + px.val) % 8) = pixel s.fb px py) ∧
    (∀ k : Fin 256, o.dispQ.get k = s.fb.get k) ∧
    o.pcQ.toNat = s.pc.toNat) ∧
  (∀ (x : Reg) (s t : State), exec (.waitk x) s = .next t → waitingQ t = true) ∧
  (∀ (mask : KeyMask) (s : State), s.wait ≠ none → mask &&& ~~~s.keys ≠ 0 → waitingQ (setKeys mask s) = false)

/-- The outputs whose meaning the spec decides. `flags_q` shows byte `i` of the flag store as byte `7 - i` with `BE` and
as byte `i` with `LE`, so with `LE` a block just initialised shows `init_flags` again (D21, log entry 31); `instr_q` is
the word the next ungated step would fetch (D20, log entry 30); `sound_on` is 1 while `ST` is not 0 (D23, log entry
32); `err` shows the default number of each error (D18, log entry 28). -/
def Obligations.OutputsTheSpecDecides : Prop :=
  (∀ (s : State) (k : Fin 8), s.cfg.flagsReadOrder = .be →
    (flagsQ s).extractLsb' (56 - 8 * k.val) 8 = s.flagByte k) ∧
  (∀ (s : State) (k : Fin 8), s.cfg.flagsReadOrder = .le → (flagsQ s).extractLsb' (8 * k.val) 8 = s.flagByte k) ∧
  (∀ (s : State) (program : List Byte) (seed : Seed) (f : PackedFlags), program.length ≤ 3584 →
    s.cfg.flagsReadOrder = .le → flagsQ (init program seed f s).state = f) ∧
  (∀ s : State, s.poisoned = false → ∃ o, observe s = .ok o ∧
    o.flagsQ = flagsQ s ∧ o.instrQ = s.readByte s.pc ++ s.readByte (s.pc + 1) ∧ (o.soundOn = true ↔ s.ST ≠ 0)) ∧
  ([Status.ok, .fail .illegalOpcode, .fail .stackOverflow, .fail .badReturn, .fail .programTooLong,
    .fail .flagOverflow].map (errPort defaultCfg) = [0, 1, 2, 3, 4, 5])
end

