-- ==== Sys2Proof/Laws/State.lean ====
section
/-!
SUPPORT. One lemma per field per update of State, true by rfl, so that no later proof unfolds a record update.
-/

namespace Sys2Proof.Machine.State

variable (s : State)

/-! ### `setReg` -/

@[simp] theorem setReg_mem (x : Reg) (v : Byte) : (s.setReg x v).mem = s.mem := rfl
@[simp] theorem setReg_pc (x : Reg) (v : Byte) : (s.setReg x v).pc = s.pc := rfl
@[simp] theorem setReg_I (x : Reg) (v : Byte) : (s.setReg x v).I = s.I := rfl
@[simp] theorem setReg_V (x : Reg) (v : Byte) : (s.setReg x v).V = s.V.set x.val v x.isLt := rfl
@[simp] theorem setReg_stack (x : Reg) (v : Byte) : (s.setReg x v).stack = s.stack := rfl
@[simp] theorem setReg_sp (x : Reg) (v : Byte) : (s.setReg x v).sp = s.sp := rfl
@[simp] theorem setReg_DT (x : Reg) (v : Byte) : (s.setReg x v).DT = s.DT := rfl
@[simp] theorem setReg_ST (x : Reg) (v : Byte) : (s.setReg x v).ST = s.ST := rfl
@[simp] theorem setReg_fb (x : Reg) (v : Byte) : (s.setReg x v).fb = s.fb := rfl
@[simp] theorem setReg_dispDirty (x : Reg) (v : Byte) : (s.setReg x v).dispDirty = s.dispDirty := rfl
@[simp] theorem setReg_flag (x : Reg) (v : Byte) : (s.setReg x v).flag = s.flag := rfl
@[simp] theorem setReg_flagsDirty (x : Reg) (v : Byte) : (s.setReg x v).flagsDirty = s.flagsDirty := rfl
@[simp] theorem setReg_keys (x : Reg) (v : Byte) : (s.setReg x v).keys = s.keys := rfl
@[simp] theorem setReg_wait (x : Reg) (v : Byte) : (s.setReg x v).wait = s.wait := rfl
@[simp] theorem setReg_rng (x : Reg) (v : Byte) : (s.setReg x v).rng = s.rng := rfl
@[simp] theorem setReg_poisoned (x : Reg) (v : Byte) : (s.setReg x v).poisoned = s.poisoned := rfl
@[simp] theorem setReg_cfg (x : Reg) (v : Byte) : (s.setReg x v).cfg = s.cfg := rfl
@[simp] theorem flagByte_setReg (x : Reg) (v : Byte) (k' : Fin 8) : (s.setReg x v).flagByte k' = s.flagByte k' := rfl
@[simp] theorem stackEntry_setReg (x : Reg) (v : Byte) (k' : Fin 16) : (s.setReg x v).stackEntry k' = s.stackEntry k' := rfl
@[simp] theorem readByte_setReg (x : Reg) (v : Byte) (a' : Addr) : (s.setReg x v).readByte a' = s.readByte a' := rfl

/-! ### `setPc` -/

@[simp] theorem setPc_mem (a : Addr) : (s.setPc a).mem = s.mem := rfl
@[simp] theorem setPc_pc (a : Addr) : (s.setPc a).pc = a := rfl
@[simp] theorem setPc_I (a : Addr) : (s.setPc a).I = s.I := rfl
@[simp] theorem setPc_V (a : Addr) : (s.setPc a).V = s.V := rfl
@[simp] theorem setPc_stack (a : Addr) : (s.setPc a).stack = s.stack := rfl
@[simp] theorem setPc_sp (a : Addr) : (s.setPc a).sp = s.sp := rfl
@[simp] theorem setPc_DT (a : Addr) : (s.setPc a).DT = s.DT := rfl
@[simp] theorem setPc_ST (a : Addr) : (s.setPc a).ST = s.ST := rfl
@[simp] theorem setPc_fb (a : Addr) : (s.setPc a).fb = s.fb := rfl
@[simp] theorem setPc_dispDirty (a : Addr) : (s.setPc a).dispDirty = s.dispDirty := rfl
@[simp] theorem setPc_flag (a : Addr) : (s.setPc a).flag = s.flag := rfl
@[simp] theorem setPc_flagsDirty (a : Addr) : (s.setPc a).flagsDirty = s.flagsDirty := rfl
@[simp] theorem setPc_keys (a : Addr) : (s.setPc a).keys = s.keys := rfl
@[simp] theorem setPc_wait (a : Addr) : (s.setPc a).wait = s.wait := rfl
@[simp] theorem setPc_rng (a : Addr) : (s.setPc a).rng = s.rng := rfl
@[simp] theorem setPc_poisoned (a : Addr) : (s.setPc a).poisoned = s.poisoned := rfl
@[simp] theorem setPc_cfg (a : Addr) : (s.setPc a).cfg = s.cfg := rfl
@[simp] theorem reg_setPc (a : Addr) (r : Reg) : (s.setPc a).reg r = s.reg r := rfl
@[simp] theorem flagByte_setPc (a : Addr) (k' : Fin 8) : (s.setPc a).flagByte k' = s.flagByte k' := rfl
@[simp] theorem stackEntry_setPc (a : Addr) (k' : Fin 16) : (s.setPc a).stackEntry k' = s.stackEntry k' := rfl
@[simp] theorem readByte_setPc (a : Addr) (a' : Addr) : (s.setPc a).readByte a' = s.readByte a' := rfl

/-! ### `setIndex` -/

@[simp] theorem setIndex_mem (a : Addr) : (s.setIndex a).mem = s.mem := rfl
@[simp] theorem setIndex_pc (a : Addr) : (s.setIndex a).pc = s.pc := rfl
@[simp] theorem setIndex_I (a : Addr) : (s.setIndex a).I = a := rfl
@[simp] theorem setIndex_V (a : Addr) : (s.setIndex a).V = s.V := rfl
@[simp] theorem setIndex_stack (a : Addr) : (s.setIndex a).stack = s.stack := rfl
@[simp] theorem setIndex_sp (a : Addr) : (s.setIndex a).sp = s.sp := rfl
@[simp] theorem setIndex_DT (a : Addr) : (s.setIndex a).DT = s.DT := rfl
@[simp] theorem setIndex_ST (a : Addr) : (s.setIndex a).ST = s.ST := rfl
@[simp] theorem setIndex_fb (a : Addr) : (s.setIndex a).fb = s.fb := rfl
@[simp] theorem setIndex_dispDirty (a : Addr) : (s.setIndex a).dispDirty = s.dispDirty := rfl
@[simp] theorem setIndex_flag (a : Addr) : (s.setIndex a).flag = s.flag := rfl
@[simp] theorem setIndex_flagsDirty (a : Addr) : (s.setIndex a).flagsDirty = s.flagsDirty := rfl
@[simp] theorem setIndex_keys (a : Addr) : (s.setIndex a).keys = s.keys := rfl
@[simp] theorem setIndex_wait (a : Addr) : (s.setIndex a).wait = s.wait := rfl
@[simp] theorem setIndex_rng (a : Addr) : (s.setIndex a).rng = s.rng := rfl
@[simp] theorem setIndex_poisoned (a : Addr) : (s.setIndex a).poisoned = s.poisoned := rfl
@[simp] theorem setIndex_cfg (a : Addr) : (s.setIndex a).cfg = s.cfg := rfl
@[simp] theorem reg_setIndex (a : Addr) (r : Reg) : (s.setIndex a).reg r = s.reg r := rfl
@[simp] theorem flagByte_setIndex (a : Addr) (k' : Fin 8) : (s.setIndex a).flagByte k' = s.flagByte k' := rfl
@[simp] theorem stackEntry_setIndex (a : Addr) (k' : Fin 16) : (s.setIndex a).stackEntry k' = s.stackEntry k' := rfl
@[simp] theorem readByte_setIndex (a : Addr) (a' : Addr) : (s.setIndex a).readByte a' = s.readByte a' := rfl

/-! ### `setStackEntry` -/

@[simp] theorem setStackEntry_mem (k : Fin 16) (a : Addr) : (s.setStackEntry k a).mem = s.mem := rfl
@[simp] theorem setStackEntry_pc (k : Fin 16) (a : Addr) : (s.setStackEntry k a).pc = s.pc := rfl
@[simp] theorem setStackEntry_I (k : Fin 16) (a : Addr) : (s.setStackEntry k a).I = s.I := rfl
@[simp] theorem setStackEntry_V (k : Fin 16) (a : Addr) : (s.setStackEntry k a).V = s.V := rfl
@[simp] theorem setStackEntry_stack (k : Fin 16) (a : Addr) : (s.setStackEntry k a).stack = s.stack.set k.val a k.isLt := rfl
@[simp] theorem setStackEntry_sp (k : Fin 16) (a : Addr) : (s.setStackEntry k a).sp = s.sp := rfl
@[simp] theorem setStackEntry_DT (k : Fin 16) (a : Addr) : (s.setStackEntry k a).DT = s.DT := rfl
@[simp] theorem setStackEntry_ST (k : Fin 16) (a : Addr) : (s.setStackEntry k a).ST = s.ST := rfl
@[simp] theorem setStackEntry_fb (k : Fin 16) (a : Addr) : (s.setStackEntry k a).fb = s.fb := rfl
@[simp] theorem setStackEntry_dispDirty (k : Fin 16) (a : Addr) : (s.setStackEntry k a).dispDirty = s.dispDirty := rfl
@[simp] theorem setStackEntry_flag (k : Fin 16) (a : Addr) : (s.setStackEntry k a).flag = s.flag := rfl
@[simp] theorem setStackEntry_flagsDirty (k : Fin 16) (a : Addr) : (s.setStackEntry k a).flagsDirty = s.flagsDirty := rfl
@[simp] theorem setStackEntry_keys (k : Fin 16) (a : Addr) : (s.setStackEntry k a).keys = s.keys := rfl
@[simp] theorem setStackEntry_wait (k : Fin 16) (a : Addr) : (s.setStackEntry k a).wait = s.wait := rfl
@[simp] theorem setStackEntry_rng (k : Fin 16) (a : Addr) : (s.setStackEntry k a).rng = s.rng := rfl
@[simp] theorem setStackEntry_poisoned (k : Fin 16) (a : Addr) : (s.setStackEntry k a).poisoned = s.poisoned := rfl
@[simp] theorem setStackEntry_cfg (k : Fin 16) (a : Addr) : (s.setStackEntry k a).cfg = s.cfg := rfl
@[simp] theorem reg_setStackEntry (k : Fin 16) (a : Addr) (r : Reg) : (s.setStackEntry k a).reg r = s.reg r := rfl
@[simp] theorem flagByte_setStackEntry (k : Fin 16) (a : Addr) (k' : Fin 8) : (s.setStackEntry k a).flagByte k' = s.flagByte k' := rfl
@[simp] theorem readByte_setStackEntry (k : Fin 16) (a : Addr) (a' : Addr) : (s.setStackEntry k a).readByte a' = s.readByte a' := rfl

/-! ### `setSp` -/

@[simp] theorem setSp_mem (n : Fin 17) : (s.setSp n).mem = s.mem := rfl
@[simp] theorem setSp_pc (n : Fin 17) : (s.setSp n).pc = s.pc := rfl
@[simp] theorem setSp_I (n : Fin 17) : (s.setSp n).I = s.I := rfl
@[simp] theorem setSp_V (n : Fin 17) : (s.setSp n).V = s.V := rfl
@[simp] theorem setSp_stack (n : Fin 17) : (s.setSp n).stack = s.stack := rfl
@[simp] theorem setSp_sp (n : Fin 17) : (s.setSp n).sp = n := rfl
@[simp] theorem setSp_DT (n : Fin 17) : (s.setSp n).DT = s.DT := rfl
@[simp] theorem setSp_ST (n : Fin 17) : (s.setSp n).ST = s.ST := rfl
@[simp] theorem setSp_fb (n : Fin 17) : (s.setSp n).fb = s.fb := rfl
@[simp] theorem setSp_dispDirty (n : Fin 17) : (s.setSp n).dispDirty = s.dispDirty := rfl
@[simp] theorem setSp_flag (n : Fin 17) : (s.setSp n).flag = s.flag := rfl
@[simp] theorem setSp_flagsDirty (n : Fin 17) : (s.setSp n).flagsDirty = s.flagsDirty := rfl
@[simp] theorem setSp_keys (n : Fin 17) : (s.setSp n).keys = s.keys := rfl
@[simp] theorem setSp_wait (n : Fin 17) : (s.setSp n).wait = s.wait := rfl
@[simp] theorem setSp_rng (n : Fin 17) : (s.setSp n).rng = s.rng := rfl
@[simp] theorem setSp_poisoned (n : Fin 17) : (s.setSp n).poisoned = s.poisoned := rfl
@[simp] theorem setSp_cfg (n : Fin 17) : (s.setSp n).cfg = s.cfg := rfl
@[simp] theorem reg_setSp (n : Fin 17) (r : Reg) : (s.setSp n).reg r = s.reg r := rfl
@[simp] theorem flagByte_setSp (n : Fin 17) (k' : Fin 8) : (s.setSp n).flagByte k' = s.flagByte k' := rfl
@[simp] theorem stackEntry_setSp (n : Fin 17) (k' : Fin 16) : (s.setSp n).stackEntry k' = s.stackEntry k' := rfl
@[simp] theorem readByte_setSp (n : Fin 17) (a' : Addr) : (s.setSp n).readByte a' = s.readByte a' := rfl

/-! ### `setDelay` -/

@[simp] theorem setDelay_mem (v : Byte) : (s.setDelay v).mem = s.mem := rfl
@[simp] theorem setDelay_pc (v : Byte) : (s.setDelay v).pc = s.pc := rfl
@[simp] theorem setDelay_I (v : Byte) : (s.setDelay v).I = s.I := rfl
@[simp] theorem setDelay_V (v : Byte) : (s.setDelay v).V = s.V := rfl
@[simp] theorem setDelay_stack (v : Byte) : (s.setDelay v).stack = s.stack := rfl
@[simp] theorem setDelay_sp (v : Byte) : (s.setDelay v).sp = s.sp := rfl
@[simp] theorem setDelay_DT (v : Byte) : (s.setDelay v).DT = v := rfl
@[simp] theorem setDelay_ST (v : Byte) : (s.setDelay v).ST = s.ST := rfl
@[simp] theorem setDelay_fb (v : Byte) : (s.setDelay v).fb = s.fb := rfl
@[simp] theorem setDelay_dispDirty (v : Byte) : (s.setDelay v).dispDirty = s.dispDirty := rfl
@[simp] theorem setDelay_flag (v : Byte) : (s.setDelay v).flag = s.flag := rfl
@[simp] theorem setDelay_flagsDirty (v : Byte) : (s.setDelay v).flagsDirty = s.flagsDirty := rfl
@[simp] theorem setDelay_keys (v : Byte) : (s.setDelay v).keys = s.keys := rfl
@[simp] theorem setDelay_wait (v : Byte) : (s.setDelay v).wait = s.wait := rfl
@[simp] theorem setDelay_rng (v : Byte) : (s.setDelay v).rng = s.rng := rfl
@[simp] theorem setDelay_poisoned (v : Byte) : (s.setDelay v).poisoned = s.poisoned := rfl
@[simp] theorem setDelay_cfg (v : Byte) : (s.setDelay v).cfg = s.cfg := rfl
@[simp] theorem reg_setDelay (v : Byte) (r : Reg) : (s.setDelay v).reg r = s.reg r := rfl
@[simp] theorem flagByte_setDelay (v : Byte) (k' : Fin 8) : (s.setDelay v).flagByte k' = s.flagByte k' := rfl
@[simp] theorem stackEntry_setDelay (v : Byte) (k' : Fin 16) : (s.setDelay v).stackEntry k' = s.stackEntry k' := rfl
@[simp] theorem readByte_setDelay (v : Byte) (a' : Addr) : (s.setDelay v).readByte a' = s.readByte a' := rfl

/-! ### `setSound` -/

@[simp] theorem setSound_mem (v : Byte) : (s.setSound v).mem = s.mem := rfl
@[simp] theorem setSound_pc (v : Byte) : (s.setSound v).pc = s.pc := rfl
@[simp] theorem setSound_I (v : Byte) : (s.setSound v).I = s.I := rfl
@[simp] theorem setSound_V (v : Byte) : (s.setSound v).V = s.V := rfl
@[simp] theorem setSound_stack (v : Byte) : (s.setSound v).stack = s.stack := rfl
@[simp] theorem setSound_sp (v : Byte) : (s.setSound v).sp = s.sp := rfl
@[simp] theorem setSound_DT (v : Byte) : (s.setSound v).DT = s.DT := rfl
@[simp] theorem setSound_ST (v : Byte) : (s.setSound v).ST = v := rfl
@[simp] theorem setSound_fb (v : Byte) : (s.setSound v).fb = s.fb := rfl
@[simp] theorem setSound_dispDirty (v : Byte) : (s.setSound v).dispDirty = s.dispDirty := rfl
@[simp] theorem setSound_flag (v : Byte) : (s.setSound v).flag = s.flag := rfl
@[simp] theorem setSound_flagsDirty (v : Byte) : (s.setSound v).flagsDirty = s.flagsDirty := rfl
@[simp] theorem setSound_keys (v : Byte) : (s.setSound v).keys = s.keys := rfl
@[simp] theorem setSound_wait (v : Byte) : (s.setSound v).wait = s.wait := rfl
@[simp] theorem setSound_rng (v : Byte) : (s.setSound v).rng = s.rng := rfl
@[simp] theorem setSound_poisoned (v : Byte) : (s.setSound v).poisoned = s.poisoned := rfl
@[simp] theorem setSound_cfg (v : Byte) : (s.setSound v).cfg = s.cfg := rfl
@[simp] theorem reg_setSound (v : Byte) (r : Reg) : (s.setSound v).reg r = s.reg r := rfl
@[simp] theorem flagByte_setSound (v : Byte) (k' : Fin 8) : (s.setSound v).flagByte k' = s.flagByte k' := rfl
@[simp] theorem stackEntry_setSound (v : Byte) (k' : Fin 16) : (s.setSound v).stackEntry k' = s.stackEntry k' := rfl
@[simp] theorem readByte_setSound (v : Byte) (a' : Addr) : (s.setSound v).readByte a' = s.readByte a' := rfl

/-! ### `setDisplay` -/

@[simp] theorem setDisplay_mem (b : Vector Byte 256) : (s.setDisplay b).mem = s.mem := rfl
@[simp] theorem setDisplay_pc (b : Vector Byte 256) : (s.setDisplay b).pc = s.pc := rfl
@[simp] theorem setDisplay_I (b : Vector Byte 256) : (s.setDisplay b).I = s.I := rfl
@[simp] theorem setDisplay_V (b : Vector Byte 256) : (s.setDisplay b).V = s.V := rfl
@[simp] theorem setDisplay_stack (b : Vector Byte 256) : (s.setDisplay b).stack = s.stack := rfl
@[simp] theorem setDisplay_sp (b : Vector Byte 256) : (s.setDisplay b).sp = s.sp := rfl
@[simp] theorem setDisplay_DT (b : Vector Byte 256) : (s.setDisplay b).DT = s.DT := rfl
@[simp] theorem setDisplay_ST (b : Vector Byte 256) : (s.setDisplay b).ST = s.ST := rfl
@[simp] theorem setDisplay_fb (b : Vector Byte 256) : (s.setDisplay b).fb = b := rfl
@[simp] theorem setDisplay_dispDirty (b : Vector Byte 256) : (s.setDisplay b).dispDirty = s.dispDirty := rfl
@[simp] theorem setDisplay_flag (b : Vector Byte 256) : (s.setDisplay b).flag = s.flag := rfl
@[simp] theorem setDisplay_flagsDirty (b : Vector Byte 256) : (s.setDisplay b).flagsDirty = s.flagsDirty := rfl
@[simp] theorem setDisplay_keys (b : Vector Byte 256) : (s.setDisplay b).keys = s.keys := rfl
@[simp] theorem setDisplay_wait (b : Vector Byte 256) : (s.setDisplay b).wait = s.wait := rfl
@[simp] theorem setDisplay_rng (b : Vector Byte 256) : (s.setDisplay b).rng = s.rng := rfl
@[simp] theorem setDisplay_poisoned (b : Vector Byte 256) : (s.setDisplay b).poisoned = s.poisoned := rfl
@[simp] theorem setDisplay_cfg (b : Vector Byte 256) : (s.setDisplay b).cfg = s.cfg := rfl
@[simp] theorem reg_setDisplay (b : Vector Byte 256) (r : Reg) : (s.setDisplay b).reg r = s.reg r := rfl
@[simp] theorem flagByte_setDisplay (b : Vector Byte 256) (k' : Fin 8) : (s.setDisplay b).flagByte k' = s.flagByte k' := rfl
@[simp] theorem stackEntry_setDisplay (b : Vector Byte 256) (k' : Fin 16) : (s.setDisplay b).stackEntry k' = s.stackEntry k' := rfl
@[simp] theorem readByte_setDisplay (b : Vector Byte 256) (a' : Addr) : (s.setDisplay b).readByte a' = s.readByte a' := rfl

/-! ### `setDispDirty` -/

@[simp] theorem setDispDirty_mem (b : Bool) : (s.setDispDirty b).mem = s.mem := rfl
@[simp] theorem setDispDirty_pc (b : Bool) : (s.setDispDirty b).pc = s.pc := rfl
@[simp] theorem setDispDirty_I (b : Bool) : (s.setDispDirty b).I = s.I := rfl
@[simp] theorem setDispDirty_V (b : Bool) : (s.setDispDirty b).V = s.V := rfl
@[simp] theorem setDispDirty_stack (b : Bool) : (s.setDispDirty b).stack = s.stack := rfl
@[simp] theorem setDispDirty_sp (b : Bool) : (s.setDispDirty b).sp = s.sp := rfl
@[simp] theorem setDispDirty_DT (b : Bool) : (s.setDispDirty b).DT = s.DT := rfl
@[simp] theorem setDispDirty_ST (b : Bool) : (s.setDispDirty b).ST = s.ST := rfl
@[simp] theorem setDispDirty_fb (b : Bool) : (s.setDispDirty b).fb = s.fb := rfl
@[simp] theorem setDispDirty_dispDirty (b : Bool) : (s.setDispDirty b).dispDirty = b := rfl
@[simp] theorem setDispDirty_flag (b : Bool) : (s.setDispDirty b).flag = s.flag := rfl
@[simp] theorem setDispDirty_flagsDirty (b : Bool) : (s.setDispDirty b).flagsDirty = s.flagsDirty := rfl
@[simp] theorem setDispDirty_keys (b : Bool) : (s.setDispDirty b).keys = s.keys := rfl
@[simp] theorem setDispDirty_wait (b : Bool) : (s.setDispDirty b).wait = s.wait := rfl
@[simp] theorem setDispDirty_rng (b : Bool) : (s.setDispDirty b).rng = s.rng := rfl
@[simp] theorem setDispDirty_poisoned (b : Bool) : (s.setDispDirty b).poisoned = s.poisoned := rfl
@[simp] theorem setDispDirty_cfg (b : Bool) : (s.setDispDirty b).cfg = s.cfg := rfl
@[simp] theorem reg_setDispDirty (b : Bool) (r : Reg) : (s.setDispDirty b).reg r = s.reg r := rfl
@[simp] theorem flagByte_setDispDirty (b : Bool) (k' : Fin 8) : (s.setDispDirty b).flagByte k' = s.flagByte k' := rfl
@[simp] theorem stackEntry_setDispDirty (b : Bool) (k' : Fin 16) : (s.setDispDirty b).stackEntry k' = s.stackEntry k' := rfl
@[simp] theorem readByte_setDispDirty (b : Bool) (a' : Addr) : (s.setDispDirty b).readByte a' = s.readByte a' := rfl

/-! ### `setFlag` -/

@[simp] theorem setFlag_mem (k : Fin 8) (v : Byte) : (s.setFlag k v).mem = s.mem := rfl
@[simp] theorem setFlag_pc (k : Fin 8) (v : Byte) : (s.setFlag k v).pc = s.pc := rfl
@[simp] theorem setFlag_I (k : Fin 8) (v : Byte) : (s.setFlag k v).I = s.I := rfl
@[simp] theorem setFlag_V (k : Fin 8) (v : Byte) : (s.setFlag k v).V = s.V := rfl
@[simp] theorem setFlag_stack (k : Fin 8) (v : Byte) : (s.setFlag k v).stack = s.stack := rfl
@[simp] theorem setFlag_sp (k : Fin 8) (v : Byte) : (s.setFlag k v).sp = s.sp := rfl
@[simp] theorem setFlag_DT (k : Fin 8) (v : Byte) : (s.setFlag k v).DT = s.DT := rfl
@[simp] theorem setFlag_ST (k : Fin 8) (v : Byte) : (s.setFlag k v).ST = s.ST := rfl
@[simp] theorem setFlag_fb (k : Fin 8) (v : Byte) : (s.setFlag k v).fb = s.fb := rfl
@[simp] theorem setFlag_dispDirty (k : Fin 8) (v : Byte) : (s.setFlag k v).dispDirty = s.dispDirty := rfl
@[simp] theorem setFlag_flag (k : Fin 8) (v : Byte) : (s.setFlag k v).flag = s.flag.set k.val v k.isLt := rfl
@[simp] theorem setFlag_flagsDirty (k : Fin 8) (v : Byte) : (s.setFlag k v).flagsDirty = s.flagsDirty := rfl
@[simp] theorem setFlag_keys (k : Fin 8) (v : Byte) : (s.setFlag k v).keys = s.keys := rfl
@[simp] theorem setFlag_wait (k : Fin 8) (v : Byte) : (s.setFlag k v).wait = s.wait := rfl
@[simp] theorem setFlag_rng (k : Fin 8) (v : Byte) : (s.setFlag k v).rng = s.rng := rfl
@[simp] theorem setFlag_poisoned (k : Fin 8) (v : Byte) : (s.setFlag k v).poisoned = s.poisoned := rfl
@[simp] theorem setFlag_cfg (k : Fin 8) (v : Byte) : (s.setFlag k v).cfg = s.cfg := rfl
@[simp] theorem reg_setFlag (k : Fin 8) (v : Byte) (r : Reg) : (s.setFlag k v).reg r = s.reg r := rfl
@[simp] theorem stackEntry_setFlag (k : Fin 8) (v : Byte) (k' : Fin 16) : (s.setFlag k v).stackEntry k' = s.stackEntry k' := rfl
@[simp] theorem readByte_setFlag (k : Fin 8) (v : Byte) (a' : Addr) : (s.setFlag k v).readByte a' = s.readByte a' := rfl

/-! ### `setFlagsDirty` -/

@[simp] theorem setFlagsDirty_mem (b : Bool) : (s.setFlagsDirty b).mem = s.mem := rfl
@[simp] theorem setFlagsDirty_pc (b : Bool) : (s.setFlagsDirty b).pc = s.pc := rfl
@[simp] theorem setFlagsDirty_I (b : Bool) : (s.setFlagsDirty b).I = s.I := rfl
@[simp] theorem setFlagsDirty_V (b : Bool) : (s.setFlagsDirty b).V = s.V := rfl
@[simp] theorem setFlagsDirty_stack (b : Bool) : (s.setFlagsDirty b).stack = s.stack := rfl
@[simp] theorem setFlagsDirty_sp (b : Bool) : (s.setFlagsDirty b).sp = s.sp := rfl
@[simp] theorem setFlagsDirty_DT (b : Bool) : (s.setFlagsDirty b).DT = s.DT := rfl
@[simp] theorem setFlagsDirty_ST (b : Bool) : (s.setFlagsDirty b).ST = s.ST := rfl
@[simp] theorem setFlagsDirty_fb (b : Bool) : (s.setFlagsDirty b).fb = s.fb := rfl
@[simp] theorem setFlagsDirty_dispDirty (b : Bool) : (s.setFlagsDirty b).dispDirty = s.dispDirty := rfl
@[simp] theorem setFlagsDirty_flag (b : Bool) : (s.setFlagsDirty b).flag = s.flag := rfl
@[simp] theorem setFlagsDirty_flagsDirty (b : Bool) : (s.setFlagsDirty b).flagsDirty = b := rfl
@[simp] theorem setFlagsDirty_keys (b : Bool) : (s.setFlagsDirty b).keys = s.keys := rfl
@[simp] theorem setFlagsDirty_wait (b : Bool) : (s.setFlagsDirty b).wait = s.wait := rfl
@[simp] theorem setFlagsDirty_rng (b : Bool) : (s.setFlagsDirty b).rng = s.rng := rfl
@[simp] theorem setFlagsDirty_poisoned (b : Bool) : (s.setFlagsDirty b).poisoned = s.poisoned := rfl
@[simp] theorem setFlagsDirty_cfg (b : Bool) : (s.setFlagsDirty b).cfg = s.cfg := rfl
@[simp] theorem reg_setFlagsDirty (b : Bool) (r : Reg) : (s.setFlagsDirty b).reg r = s.reg r := rfl
@[simp] theorem flagByte_setFlagsDirty (b : Bool) (k' : Fin 8) : (s.setFlagsDirty b).flagByte k' = s.flagByte k' := rfl
@[simp] theorem stackEntry_setFlagsDirty (b : Bool) (k' : Fin 16) : (s.setFlagsDirty b).stackEntry k' = s.stackEntry k' := rfl
@[simp] theorem readByte_setFlagsDirty (b : Bool) (a' : Addr) : (s.setFlagsDirty b).readByte a' = s.readByte a' := rfl

/-! ### `setKeyLatch` -/

@[simp] theorem setKeyLatch_mem (m : KeyMask) : (s.setKeyLatch m).mem = s.mem := rfl
@[simp] theorem setKeyLatch_pc (m : KeyMask) : (s.setKeyLatch m).pc = s.pc := rfl
@[simp] theorem setKeyLatch_I (m : KeyMask) : (s.setKeyLatch m).I = s.I := rfl
@[simp] theorem setKeyLatch_V (m : KeyMask) : (s.setKeyLatch m).V = s.V := rfl
@[simp] theorem setKeyLatch_stack (m : KeyMask) : (s.setKeyLatch m).stack = s.stack := rfl
@[simp] theorem setKeyLatch_sp (m : KeyMask) : (s.setKeyLatch m).sp = s.sp := rfl
@[simp] theorem setKeyLatch_DT (m : KeyMask) : (s.setKeyLatch m).DT = s.DT := rfl
@[simp] theorem setKeyLatch_ST (m : KeyMask) : (s.setKeyLatch m).ST = s.ST := rfl
@[simp] theorem setKeyLatch_fb (m : KeyMask) : (s.setKeyLatch m).fb = s.fb := rfl
@[simp] theorem setKeyLatch_dispDirty (m : KeyMask) : (s.setKeyLatch m).dispDirty = s.dispDirty := rfl
@[simp] theorem setKeyLatch_flag (m : KeyMask) : (s.setKeyLatch m).flag = s.flag := rfl
@[simp] theorem setKeyLatch_flagsDirty (m : KeyMask) : (s.setKeyLatch m).flagsDirty = s.flagsDirty := rfl
@[simp] theorem setKeyLatch_keys (m : KeyMask) : (s.setKeyLatch m).keys = m := rfl
@[simp] theorem setKeyLatch_wait (m : KeyMask) : (s.setKeyLatch m).wait = s.wait := rfl
@[simp] theorem setKeyLatch_rng (m : KeyMask) : (s.setKeyLatch m).rng = s.rng := rfl
@[simp] theorem setKeyLatch_poisoned (m : KeyMask) : (s.setKeyLatch m).poisoned = s.poisoned := rfl
@[simp] theorem setKeyLatch_cfg (m : KeyMask) : (s.setKeyLatch m).cfg = s.cfg := rfl
@[simp] theorem reg_setKeyLatch (m : KeyMask) (r : Reg) : (s.setKeyLatch m).reg r = s.reg r := rfl
@[simp] theorem flagByte_setKeyLatch (m : KeyMask) (k' : Fin 8) : (s.setKeyLatch m).flagByte k' = s.flagByte k' := rfl
@[simp] theorem stackEntry_setKeyLatch (m : KeyMask) (k' : Fin 16) : (s.setKeyLatch m).stackEntry k' = s.stackEntry k' := rfl
@[simp] theorem readByte_setKeyLatch (m : KeyMask) (a' : Addr) : (s.setKeyLatch m).readByte a' = s.readByte a' := rfl

/-! ### `setWait` -/

@[simp] theorem setWait_mem (w : Option Reg) : (s.setWait w).mem = s.mem := rfl
@[simp] theorem setWait_pc (w : Option Reg) : (s.setWait w).pc = s.pc := rfl
@[simp] theorem setWait_I (w : Option Reg) : (s.setWait w).I = s.I := rfl
@[simp] theorem setWait_V (w : Option Reg) : (s.setWait w).V = s.V := rfl
@[simp] theorem setWait_stack (w : Option Reg) : (s.setWait w).stack = s.stack := rfl
@[simp] theorem setWait_sp (w : Option Reg) : (s.setWait w).sp = s.sp := rfl
@[simp] theorem setWait_DT (w : Option Reg) : (s.setWait w).DT = s.DT := rfl
@[simp] theorem setWait_ST (w : Option Reg) : (s.setWait w).ST = s.ST := rfl
@[simp] theorem setWait_fb (w : Option Reg) : (s.setWait w).fb = s.fb := rfl
@[simp] theorem setWait_dispDirty (w : Option Reg) : (s.setWait w).dispDirty = s.dispDirty := rfl
@[simp] theorem setWait_flag (w : Option Reg) : (s.setWait w).flag = s.flag := rfl
@[simp] theorem setWait_flagsDirty (w : Option Reg) : (s.setWait w).flagsDirty = s.flagsDirty := rfl
@[simp] theorem setWait_keys (w : Option Reg) : (s.setWait w).keys = s.keys := rfl
@[simp] theorem setWait_wait (w : Option Reg) : (s.setWait w).wait = w := rfl
@[simp] theorem setWait_rng (w : Option Reg) : (s.setWait w).rng = s.rng := rfl
@[simp] theorem setWait_poisoned (w : Option Reg) : (s.setWait w).poisoned = s.poisoned := rfl
@[simp] theorem setWait_cfg (w : Option Reg) : (s.setWait w).cfg = s.cfg := rfl
@[simp] theorem reg_setWait (w : Option Reg) (r : Reg) : (s.setWait w).reg r = s.reg r := rfl
@[simp] theorem flagByte_setWait (w : Option Reg) (k' : Fin 8) : (s.setWait w).flagByte k' = s.flagByte k' := rfl
@[simp] theorem stackEntry_setWait (w : Option Reg) (k' : Fin 16) : (s.setWait w).stackEntry k' = s.stackEntry k' := rfl
@[simp] theorem readByte_setWait (w : Option Reg) (a' : Addr) : (s.setWait w).readByte a' = s.readByte a' := rfl

/-! ### `setRng` -/

@[simp] theorem setRng_mem (r : Config.RngState) : (s.setRng r).mem = s.mem := rfl
@[simp] theorem setRng_pc (r : Config.RngState) : (s.setRng r).pc = s.pc := rfl
@[simp] theorem setRng_I (r : Config.RngState) : (s.setRng r).I = s.I := rfl
@[simp] theorem setRng_V (r : Config.RngState) : (s.setRng r).V = s.V := rfl
@[simp] theorem setRng_stack (r : Config.RngState) : (s.setRng r).stack = s.stack := rfl
@[simp] theorem setRng_sp (r : Config.RngState) : (s.setRng r).sp = s.sp := rfl
@[simp] theorem setRng_DT (r : Config.RngState) : (s.setRng r).DT = s.DT := rfl
@[simp] theorem setRng_ST (r : Config.RngState) : (s.setRng r).ST = s.ST := rfl
@[simp] theorem setRng_fb (r : Config.RngState) : (s.setRng r).fb = s.fb := rfl
@[simp] theorem setRng_dispDirty (r : Config.RngState) : (s.setRng r).dispDirty = s.dispDirty := rfl
@[simp] theorem setRng_flag (r : Config.RngState) : (s.setRng r).flag = s.flag := rfl
@[simp] theorem setRng_flagsDirty (r : Config.RngState) : (s.setRng r).flagsDirty = s.flagsDirty := rfl
@[simp] theorem setRng_keys (r : Config.RngState) : (s.setRng r).keys = s.keys := rfl
@[simp] theorem setRng_wait (r : Config.RngState) : (s.setRng r).wait = s.wait := rfl
@[simp] theorem setRng_rng (r : Config.RngState) : (s.setRng r).rng = r := rfl
@[simp] theorem setRng_poisoned (r : Config.RngState) : (s.setRng r).poisoned = s.poisoned := rfl
@[simp] theorem setRng_cfg (r : Config.RngState) : (s.setRng r).cfg = s.cfg := rfl
@[simp] theorem reg_setRng (q : Config.RngState) (r : Reg) : (s.setRng q).reg r = s.reg r := rfl
@[simp] theorem flagByte_setRng (r : Config.RngState) (k' : Fin 8) : (s.setRng r).flagByte k' = s.flagByte k' := rfl
@[simp] theorem stackEntry_setRng (r : Config.RngState) (k' : Fin 16) : (s.setRng r).stackEntry k' = s.stackEntry k' := rfl
@[simp] theorem readByte_setRng (r : Config.RngState) (a' : Addr) : (s.setRng r).readByte a' = s.readByte a' := rfl

/-! ### `writeByte` -/

@[simp] theorem writeByte_mem (a : Addr) (b : Byte) : (s.writeByte a b).mem = Memory.write s.cfg s.mem a.toNat b := rfl
@[simp] theorem writeByte_pc (a : Addr) (b : Byte) : (s.writeByte a b).pc = s.pc := rfl
@[simp] theorem writeByte_I (a : Addr) (b : Byte) : (s.writeByte a b).I = s.I := rfl
@[simp] theorem writeByte_V (a : Addr) (b : Byte) : (s.writeByte a b).V = s.V := rfl
@[simp] theorem writeByte_stack (a : Addr) (b : Byte) : (s.writeByte a b).stack = s.stack := rfl
@[simp] theorem writeByte_sp (a : Addr) (b : Byte) : (s.writeByte a b).sp = s.sp := rfl
@[simp] theorem writeByte_DT (a : Addr) (b : Byte) : (s.writeByte a b).DT = s.DT := rfl
@[simp] theorem writeByte_ST (a : Addr) (b : Byte) : (s.writeByte a b).ST = s.ST := rfl
@[simp] theorem writeByte_fb (a : Addr) (b : Byte) : (s.writeByte a b).fb = s.fb := rfl
@[simp] theorem writeByte_dispDirty (a : Addr) (b : Byte) : (s.writeByte a b).dispDirty = s.dispDirty := rfl
@[simp] theorem writeByte_flag (a : Addr) (b : Byte) : (s.writeByte a b).flag = s.flag := rfl
@[simp] theorem writeByte_flagsDirty (a : Addr) (b : Byte) : (s.writeByte a b).flagsDirty = s.flagsDirty := rfl
@[simp] theorem writeByte_keys (a : Addr) (b : Byte) : (s.writeByte a b).keys = s.keys := rfl
@[simp] theorem writeByte_wait (a : Addr) (b : Byte) : (s.writeByte a b).wait = s.wait := rfl
@[simp] theorem writeByte_rng (a : Addr) (b : Byte) : (s.writeByte a b).rng = s.rng := rfl
@[simp] theorem writeByte_poisoned (a : Addr) (b : Byte) : (s.writeByte a b).poisoned = s.poisoned := rfl
@[simp] theorem writeByte_cfg (a : Addr) (b : Byte) : (s.writeByte a b).cfg = s.cfg := rfl
@[simp] theorem reg_writeByte (a : Addr) (b : Byte) (r : Reg) : (s.writeByte a b).reg r = s.reg r := rfl
@[simp] theorem flagByte_writeByte (a : Addr) (b : Byte) (k' : Fin 8) : (s.writeByte a b).flagByte k' = s.flagByte k' := rfl
@[simp] theorem stackEntry_writeByte (a : Addr) (b : Byte) (k' : Fin 16) : (s.writeByte a b).stackEntry k' = s.stackEntry k' := rfl

/-! ### `advance` -/

@[simp] theorem advance_mem : (s.advance).mem = s.mem := rfl
@[simp] theorem advance_pc : (s.advance).pc = s.pc + 2 := rfl
@[simp] theorem advance_I : (s.advance).I = s.I := rfl
@[simp] theorem advance_V : (s.advance).V = s.V := rfl
@[simp] theorem advance_stack : (s.advance).stack = s.stack := rfl
@[simp] theorem advance_sp : (s.advance).sp = s.sp := rfl
@[simp] theorem advance_DT : (s.advance).DT = s.DT := rfl
@[simp] theorem advance_ST : (s.advance).ST = s.ST := rfl
@[simp] theorem advance_fb : (s.advance).fb = s.fb := rfl
@[simp] theorem advance_dispDirty : (s.advance).dispDirty = s.dispDirty := rfl
@[simp] theorem advance_flag : (s.advance).flag = s.flag := rfl
@[simp] theorem advance_flagsDirty : (s.advance).flagsDirty = s.flagsDirty := rfl
@[simp] theorem advance_keys : (s.advance).keys = s.keys := rfl
@[simp] theorem advance_wait : (s.advance).wait = s.wait := rfl
@[simp] theorem advance_rng : (s.advance).rng = s.rng := rfl
@[simp] theorem advance_poisoned : (s.advance).poisoned = s.poisoned := rfl
@[simp] theorem advance_cfg : (s.advance).cfg = s.cfg := rfl
@[simp] theorem reg_advance (r : Reg) : (s.advance).reg r = s.reg r := rfl
@[simp] theorem flagByte_advance (k' : Fin 8) : (s.advance).flagByte k' = s.flagByte k' := rfl
@[simp] theorem stackEntry_advance (k' : Fin 16) : (s.advance).stackEntry k' = s.stackEntry k' := rfl
@[simp] theorem readByte_advance (a' : Addr) : (s.advance).readByte a' = s.readByte a' := rfl

/-! ### `skipIf` -/

@[simp] theorem skipIf_mem (c : Bool) : (s.skipIf c).mem = s.mem := rfl
@[simp] theorem skipIf_pc (c : Bool) : (s.skipIf c).pc = if c then s.pc + 4 else s.pc + 2 := rfl
@[simp] theorem skipIf_I (c : Bool) : (s.skipIf c).I = s.I := rfl
@[simp] theorem skipIf_V (c : Bool) : (s.skipIf c).V = s.V := rfl
@[simp] theorem skipIf_stack (c : Bool) : (s.skipIf c).stack = s.stack := rfl
@[simp] theorem skipIf_sp (c : Bool) : (s.skipIf c).sp = s.sp := rfl
@[simp] theorem skipIf_DT (c : Bool) : (s.skipIf c).DT = s.DT := rfl
@[simp] theorem skipIf_ST (c : Bool) : (s.skipIf c).ST = s.ST := rfl
@[simp] theorem skipIf_fb (c : Bool) : (s.skipIf c).fb = s.fb := rfl
@[simp] theorem skipIf_dispDirty (c : Bool) : (s.skipIf c).dispDirty = s.dispDirty := rfl
@[simp] theorem skipIf_flag (c : Bool) : (s.skipIf c).flag = s.flag := rfl
@[simp] theorem skipIf_flagsDirty (c : Bool) : (s.skipIf c).flagsDirty = s.flagsDirty := rfl
@[simp] theorem skipIf_keys (c : Bool) : (s.skipIf c).keys = s.keys := rfl
@[simp] theorem skipIf_wait (c : Bool) : (s.skipIf c).wait = s.wait := rfl
@[simp] theorem skipIf_rng (c : Bool) : (s.skipIf c).rng = s.rng := rfl
@[simp] theorem skipIf_poisoned (c : Bool) : (s.skipIf c).poisoned = s.poisoned := rfl
@[simp] theorem skipIf_cfg (c : Bool) : (s.skipIf c).cfg = s.cfg := rfl
@[simp] theorem reg_skipIf (c : Bool) (r : Reg) : (s.skipIf c).reg r = s.reg r := rfl
@[simp] theorem flagByte_skipIf (c : Bool) (k' : Fin 8) : (s.skipIf c).flagByte k' = s.flagByte k' := rfl
@[simp] theorem stackEntry_skipIf (c : Bool) (k' : Fin 16) : (s.skipIf c).stackEntry k' = s.stackEntry k' := rfl
@[simp] theorem readByte_skipIf (c : Bool) (a' : Addr) : (s.skipIf c).readByte a' = s.readByte a' := rfl

/-! ### `setResultAndFlag` -/

@[simp] theorem setResultAndFlag_mem (x : Reg) (v : Byte) (f : Bool) : (s.setResultAndFlag x v f).mem = s.mem := rfl
@[simp] theorem setResultAndFlag_pc (x : Reg) (v : Byte) (f : Bool) : (s.setResultAndFlag x v f).pc = s.pc := rfl
@[simp] theorem setResultAndFlag_I (x : Reg) (v : Byte) (f : Bool) : (s.setResultAndFlag x v f).I = s.I := rfl
@[simp] theorem setResultAndFlag_stack (x : Reg) (v : Byte) (f : Bool) : (s.setResultAndFlag x v f).stack = s.stack := rfl
@[simp] theorem setResultAndFlag_sp (x : Reg) (v : Byte) (f : Bool) : (s.setResultAndFlag x v f).sp = s.sp := rfl
@[simp] theorem setResultAndFlag_DT (x : Reg) (v : Byte) (f : Bool) : (s.setResultAndFlag x v f).DT = s.DT := rfl
@[simp] theorem setResultAndFlag_ST (x : Reg) (v : Byte) (f : Bool) : (s.setResultAndFlag x v f).ST = s.ST := rfl
@[simp] theorem setResultAndFlag_fb (x : Reg) (v : Byte) (f : Bool) : (s.setResultAndFlag x v f).fb = s.fb := rfl
@[simp] theorem setResultAndFlag_dispDirty (x : Reg) (v : Byte) (f : Bool) : (s.setResultAndFlag x v f).dispDirty = s.dispDirty := rfl
@[simp] theorem setResultAndFlag_flag (x : Reg) (v : Byte) (f : Bool) : (s.setResultAndFlag x v f).flag = s.flag := rfl
@[simp] theorem setResultAndFlag_flagsDirty (x : Reg) (v : Byte) (f : Bool) : (s.setResultAndFlag x v f).flagsDirty = s.flagsDirty := rfl
@[simp] theorem setResultAndFlag_keys (x : Reg) (v : Byte) (f : Bool) : (s.setResultAndFlag x v f).keys = s.keys := rfl
@[simp] theorem setResultAndFlag_wait (x : Reg) (v : Byte) (f : Bool) : (s.setResultAndFlag x v f).wait = s.wait := rfl
@[simp] theorem setResultAndFlag_rng (x : Reg) (v : Byte) (f : Bool) : (s.setResultAndFlag x v f).rng = s.rng := rfl
@[simp] theorem setResultAndFlag_poisoned (x : Reg) (v : Byte) (f : Bool) : (s.setResultAndFlag x v f).poisoned = s.poisoned := rfl
@[simp] theorem setResultAndFlag_cfg (x : Reg) (v : Byte) (f : Bool) : (s.setResultAndFlag x v f).cfg = s.cfg := rfl
@[simp] theorem flagByte_setResultAndFlag (x : Reg) (v : Byte) (f : Bool) (k' : Fin 8) : (s.setResultAndFlag x v f).flagByte k' = s.flagByte k' := rfl
@[simp] theorem stackEntry_setResultAndFlag (x : Reg) (v : Byte) (f : Bool) (k' : Fin 16) : (s.setResultAndFlag x v f).stackEntry k' = s.stackEntry k' := rfl
@[simp] theorem readByte_setResultAndFlag (x : Reg) (v : Byte) (f : Bool) (a' : Addr) : (s.setResultAndFlag x v f).readByte a' = s.readByte a' := rfl

end Sys2Proof.Machine.State
end

