-- ==== Sys2Proof/Laws/Registers.lean ====
section
/-!
SUPPORT. A read after a write, for the arrays of State: registers, flag store, call stack.
-/

namespace Sys2Proof.Machine

theorem vector_get_set {α : Type} {n : Nat} (v : Vector α n) (i j : Fin n) (a : α) :
    (v.set i.val a i.isLt).get j = if j = i then a else v.get j := by
  simp [Vector.get_eq_getElem, Vector.getElem_set, Fin.ext_iff, eq_comm]

namespace State

variable (s : State)

theorem reg_setReg (x r : Reg) (v : Byte) : (s.setReg x v).reg r = if r = x then v else s.reg r :=
  vector_get_set _ _ _ _

@[simp] theorem reg_setReg_self (x : Reg) (v : Byte) : (s.setReg x v).reg x = v := by
  simp [reg_setReg]

@[simp] theorem reg_setReg_of_ne {x r : Reg} (h : r ≠ x) (v : Byte) : (s.setReg x v).reg r = s.reg r := by
  simp [reg_setReg, h]

theorem flagByte_setFlag (k j : Fin 8) (v : Byte) :
    (s.setFlag k v).flagByte j = if j = k then v else s.flagByte j :=
  vector_get_set _ _ _ _

theorem stackEntry_setStackEntry (k j : Fin 16) (a : Addr) :
    (s.setStackEntry k a).stackEntry j = if j = k then a else s.stackEntry j :=
  vector_get_set _ _ _ _

/-- The result and the flag, written in that order (R123). -/
theorem reg_setResultAndFlag (x r : Reg) (v : Byte) (f : Bool) :
    (s.setResultAndFlag x v f).reg r = if r = vf then flagValue f else if r = x then v else s.reg r := by
  simp [setResultAndFlag, reg_setReg]

end State

end Sys2Proof.Machine
end

