-- ==== Sys2Proof/Laws/Memory.lean ====
section
/-!
SUPPORT. The memory operations: a read after a write, the canonical form kept by every write, and equal contents
being equal data.
-/

namespace Sys2Proof.Machine

variable {c : Cfg}

theorem Memory.read_put (a x : Nat) (b : Byte) (rest : Memory) (h : a = x → Memory.read c rest x = resetByte c x) :
    Memory.read c (Memory.put c a b rest) x = if a = x then b else Memory.read c rest x := by
  unfold Memory.put
  split
  · split
    · next hb hx => rw [h hx, hb, hx]
    · rfl
  · simp [Memory.read]

theorem Memory.wf_tail {p : Host.Cell} {m : Memory} (h : Memory.wf c (p :: m)) : Memory.wf c m :=
  ⟨(List.pairwise_cons.1 h.1).2, fun q hq => h.2 q (List.mem_cons_of_mem _ hq)⟩

/-- An address below every listed one reads as the reset contents. -/
theorem Memory.read_below {m : Memory} {a : Nat} (h : ∀ p ∈ m, a < p.1) : Memory.read c m a = resetByte c a := by
  induction m with
  | nil => rfl
  | cons p rest ih =>
    have hp := h p (List.mem_cons_self ..)
    simp only [Memory.read]
    rw [if_neg (by omega)]
    exact ih fun q hq => h q (List.mem_cons_of_mem _ hq)

/-- A read after a write to the same cell gives the byte written, and a write leaves every other cell alone. -/
theorem Memory.read_write {m : Memory} (h : Memory.wf c m) (a x : Nat) (b : Byte) :
    Memory.read c (Memory.write c m a b) x = if a = x then b else Memory.read c m x := by
  induction m with
  | nil => exact Memory.read_put a x b [] fun _ => rfl
  | cons p rest ih =>
    obtain ⟨k, v⟩ := p
    have hlow : ∀ q ∈ rest, k < q.1 := (List.pairwise_cons.1 h.1).1
    simp only [Memory.write]
    split
    · next hak =>
      refine Memory.read_put a x b _ fun hx => Memory.read_below fun q hq => ?_
      rcases List.mem_cons.1 hq with rfl | hq
      · exact hx ▸ hak
      · exact hx ▸ Nat.lt_trans hak (hlow q hq)
    · split
      · next hak =>
        rw [Memory.read_put a x b rest fun hx => Memory.read_below fun q hq => by
          have := hlow q hq; omega]
        simp only [Memory.read, hak]
        split <;> rfl
      · next hak =>
        simp only [Memory.read, ih (Memory.wf_tail h)]
        split
        · next hkx => rw [if_neg (by omega)]
        · rfl

/-- The cells of a memory after a write: the old ones, and perhaps the one written. -/
theorem Memory.mem_write {m : Memory} {a : Nat} {b : Byte} {p : Host.Cell} (h : p ∈ Memory.write c m a b) :
    p ∈ m ∨ (p = (a, b) ∧ b ≠ resetByte c a) := by
  have put : ∀ rest, p ∈ Memory.put c a b rest → p ∈ rest ∨ (p = (a, b) ∧ b ≠ resetByte c a) := by
    intro rest hp
    unfold Memory.put at hp
    split at hp
    · exact .inl hp
    · next hb => exact (List.mem_cons.1 hp).elim (fun e => .inr ⟨e, hb⟩) .inl
  induction m with
  | nil => exact put _ h
  | cons q rest ih =>
    simp only [Memory.write] at h
    split at h
    · exact put _ h
    · split at h
      · exact (put _ h).imp_left (List.mem_cons_of_mem _)
      · rcases List.mem_cons.1 h with rfl | h
        · exact .inl (List.mem_cons_self ..)
        · exact (ih h).imp_left (List.mem_cons_of_mem _)

/-- A write keeps the canonical form. -/
theorem Memory.wf_write {m : Memory} (h : Memory.wf c m) {a : Nat} (ha : a < 4096) (b : Byte) :
    Memory.wf c (Memory.write c m a b) := by
  refine ⟨?_, fun p hp => (Memory.mem_write hp).elim (h.2 p) fun e => by
    obtain ⟨rfl, hb⟩ := e; exact ⟨ha, hb⟩⟩
  have put : ∀ rest : Memory, rest.Pairwise (fun p q => p.1 < q.1) → (∀ q ∈ rest, a < q.1) →
      (Memory.put c a b rest).Pairwise (fun p q => p.1 < q.1) := by
    intro rest hr hlow
    unfold Memory.put
    split
    · exact hr
    · exact List.pairwise_cons.2 ⟨hlow, hr⟩
  induction m with
  | nil => exact put _ List.Pairwise.nil (by simp)
  | cons q rest ih =>
    have hlow := (List.pairwise_cons.1 h.1).1
    simp only [Memory.write]
    split
    · next haq =>
      refine put _ h.1 fun r hr => ?_
      rcases List.mem_cons.1 hr with rfl | hr
      · exact haq
      · exact Nat.lt_trans haq (hlow r hr)
    · split
      · next haq => exact put _ (Memory.wf_tail h).1 fun r hr => haq ▸ hlow r hr
      · next h1 h2 =>
        refine List.pairwise_cons.2 ⟨fun r hr => ?_, ih (Memory.wf_tail h)⟩
        rcases Memory.mem_write hr with hr | ⟨rfl, -⟩
        · exact hlow r hr
        · show q.1 < a
          omega

theorem Memory.wf_nil : Memory.wf c [] := ⟨List.Pairwise.nil, by simp⟩

/-- Equal contents are equal data: two canonical memories that read the same at every address are the same list. -/
theorem Memory.eq_of_read {m n : Memory} (hm : Memory.wf c m) (hn : Memory.wf c n)
    (h : ∀ a, Memory.read c m a = Memory.read c n a) : m = n := by
  have head : ∀ {k : Nat} {v : Byte} {rest : Memory}, Memory.wf c ((k, v) :: rest) →
      Memory.read c ((k, v) :: rest) k ≠ resetByte c k := by
    intro k v rest hw
    simpa [Memory.read] using (hw.2 (k, v) (List.mem_cons_self ..)).2
  induction m generalizing n with
  | nil =>
    cases n with
    | nil => rfl
    | cons q rest => exact absurd (h q.1).symm (head hn)
  | cons p rest ih =>
    obtain ⟨k, v⟩ := p
    cases n with
    | nil => exact absurd (h k) (head hm)
    | cons q rest' =>
      obtain ⟨k', v'⟩ := q
      have hlow : ∀ q ∈ rest, k < q.1 := (List.pairwise_cons.1 hm.1).1
      have hlow' : ∀ q ∈ rest', k' < q.1 := (List.pairwise_cons.1 hn.1).1
      have hk : k = k' := by
        rcases Nat.lt_trichotomy k k' with hlt | heq | hlt
        · refine absurd ((h k).trans (Memory.read_below fun q hq => ?_)) (head hm)
          rcases List.mem_cons.1 hq with rfl | hq
          · exact hlt
          · exact Nat.lt_trans hlt (hlow' q hq)
        · exact heq
        · refine absurd ((h k').symm.trans (Memory.read_below fun q hq => ?_)) (head hn)
          rcases List.mem_cons.1 hq with rfl | hq
          · exact hlt
          · exact Nat.lt_trans hlt (hlow q hq)
      subst hk
      have hv : v = v' := by simpa [Memory.read] using h k
      subst hv
      congr 1
      refine ih (Memory.wf_tail hm) (Memory.wf_tail hn) (fun a => ?_) 
      rcases Nat.lt_or_ge k a with hka | hka
      · have := h a
        simp only [Memory.read] at this
        rwa [if_neg (by omega), if_neg (by omega)] at this
      · rw [Memory.read_below fun q hq => Nat.lt_of_le_of_lt hka (hlow q hq),
          Memory.read_below fun q hq => Nat.lt_of_le_of_lt hka (hlow' q hq)]

/-! ### The same through State -/

namespace State

variable {s : State}

theorem readByte_writeByte (h : Memory.wf s.cfg s.mem) (a x : Addr) (b : Byte) :
    (s.writeByte a b).readByte x = if x = a then b else s.readByte x := by
  have := Memory.read_write h a.toNat x.toNat b
  simp only [BitVec.toNat_inj, eq_comm (a := a)] at this
  exact this

theorem wf_writeByte (h : Memory.wf s.cfg s.mem) (a : Addr) (b : Byte) :
    Memory.wf (s.writeByte a b).cfg (s.writeByte a b).mem :=
  Memory.wf_write h a.isLt b

end State

end Sys2Proof.Machine
end

