-- ==== Sys2Proof/Laws/Runs.lean ====
section
/-!
SUPPORT. The four register runs of `FX55`, `FX65`, `FX75` and `FX85`: what each changes, in closed form, and that it
changes nothing else.
-/

namespace Sys2Proof.Machine

variable (s : State)

/-! ### `storeRegs` -/

@[simp] theorem storeRegs_pc (n : Nat) : (storeRegs n s).pc = s.pc := by
  induction n <;> simp [storeRegs, *]
@[simp] theorem storeRegs_I (n : Nat) : (storeRegs n s).I = s.I := by
  induction n <;> simp [storeRegs, *]
@[simp] theorem storeRegs_V (n : Nat) : (storeRegs n s).V = s.V := by
  induction n <;> simp [storeRegs, *]
@[simp] theorem storeRegs_stack (n : Nat) : (storeRegs n s).stack = s.stack := by
  induction n <;> simp [storeRegs, *]
@[simp] theorem storeRegs_sp (n : Nat) : (storeRegs n s).sp = s.sp := by
  induction n <;> simp [storeRegs, *]
@[simp] theorem storeRegs_DT (n : Nat) : (storeRegs n s).DT = s.DT := by
  induction n <;> simp [storeRegs, *]
@[simp] theorem storeRegs_ST (n : Nat) : (storeRegs n s).ST = s.ST := by
  induction n <;> simp [storeRegs, *]
@[simp] theorem storeRegs_fb (n : Nat) : (storeRegs n s).fb = s.fb := by
  induction n <;> simp [storeRegs, *]
@[simp] theorem storeRegs_dispDirty (n : Nat) : (storeRegs n s).dispDirty = s.dispDirty := by
  induction n <;> simp [storeRegs, *]
@[simp] theorem storeRegs_flag (n : Nat) : (storeRegs n s).flag = s.flag := by
  induction n <;> simp [storeRegs, *]
@[simp] theorem storeRegs_flagsDirty (n : Nat) : (storeRegs n s).flagsDirty = s.flagsDirty := by
  induction n <;> simp [storeRegs, *]
@[simp] theorem storeRegs_keys (n : Nat) : (storeRegs n s).keys = s.keys := by
  induction n <;> simp [storeRegs, *]
@[simp] theorem storeRegs_wait (n : Nat) : (storeRegs n s).wait = s.wait := by
  induction n <;> simp [storeRegs, *]
@[simp] theorem storeRegs_rng (n : Nat) : (storeRegs n s).rng = s.rng := by
  induction n <;> simp [storeRegs, *]
@[simp] theorem storeRegs_poisoned (n : Nat) : (storeRegs n s).poisoned = s.poisoned := by
  induction n <;> simp [storeRegs, *]
@[simp] theorem storeRegs_cfg (n : Nat) : (storeRegs n s).cfg = s.cfg := by
  induction n <;> simp [storeRegs, *]
@[simp] theorem reg_storeRegs (n : Nat) (r : Reg) : (storeRegs n s).reg r = s.reg r := by
  induction n <;> simp [storeRegs, *]
@[simp] theorem flagByte_storeRegs (n : Nat) (k : Fin 8) : (storeRegs n s).flagByte k = s.flagByte k := by
  induction n <;> simp [storeRegs, *]
@[simp] theorem stackEntry_storeRegs (n : Nat) (k : Fin 16) : (storeRegs n s).stackEntry k = s.stackEntry k := by
  induction n <;> simp [storeRegs, *]

/-! ### `loadRegs` -/

@[simp] theorem loadRegs_mem (n : Nat) : (loadRegs n s).mem = s.mem := by
  induction n <;> simp [loadRegs, *]
@[simp] theorem loadRegs_pc (n : Nat) : (loadRegs n s).pc = s.pc := by
  induction n <;> simp [loadRegs, *]
@[simp] theorem loadRegs_I (n : Nat) : (loadRegs n s).I = s.I := by
  induction n <;> simp [loadRegs, *]
@[simp] theorem loadRegs_stack (n : Nat) : (loadRegs n s).stack = s.stack := by
  induction n <;> simp [loadRegs, *]
@[simp] theorem loadRegs_sp (n : Nat) : (loadRegs n s).sp = s.sp := by
  induction n <;> simp [loadRegs, *]
@[simp] theorem loadRegs_DT (n : Nat) : (loadRegs n s).DT = s.DT := by
  induction n <;> simp [loadRegs, *]
@[simp] theorem loadRegs_ST (n : Nat) : (loadRegs n s).ST = s.ST := by
  induction n <;> simp [loadRegs, *]
@[simp] theorem loadRegs_fb (n : Nat) : (loadRegs n s).fb = s.fb := by
  induction n <;> simp [loadRegs, *]
@[simp] theorem loadRegs_dispDirty (n : Nat) : (loadRegs n s).dispDirty = s.dispDirty := by
  induction n <;> simp [loadRegs, *]
@[simp] theorem loadRegs_flag (n : Nat) : (loadRegs n s).flag = s.flag := by
  induction n <;> simp [loadRegs, *]
@[simp] theorem loadRegs_flagsDirty (n : Nat) : (loadRegs n s).flagsDirty = s.flagsDirty := by
  induction n <;> simp [loadRegs, *]
@[simp] theorem loadRegs_keys (n : Nat) : (loadRegs n s).keys = s.keys := by
  induction n <;> simp [loadRegs, *]
@[simp] theorem loadRegs_wait (n : Nat) : (loadRegs n s).wait = s.wait := by
  induction n <;> simp [loadRegs, *]
@[simp] theorem loadRegs_rng (n : Nat) : (loadRegs n s).rng = s.rng := by
  induction n <;> simp [loadRegs, *]
@[simp] theorem loadRegs_poisoned (n : Nat) : (loadRegs n s).poisoned = s.poisoned := by
  induction n <;> simp [loadRegs, *]
@[simp] theorem loadRegs_cfg (n : Nat) : (loadRegs n s).cfg = s.cfg := by
  induction n <;> simp [loadRegs, *]
@[simp] theorem flagByte_loadRegs (n : Nat) (k : Fin 8) : (loadRegs n s).flagByte k = s.flagByte k := by
  induction n <;> simp [loadRegs, *]
@[simp] theorem stackEntry_loadRegs (n : Nat) (k : Fin 16) : (loadRegs n s).stackEntry k = s.stackEntry k := by
  induction n <;> simp [loadRegs, *]
@[simp] theorem readByte_loadRegs (n : Nat) (a : Addr) : (loadRegs n s).readByte a = s.readByte a := by
  induction n <;> simp [loadRegs, *]

/-! ### `saveFlags` -/

@[simp] theorem saveFlags_mem (n : Nat) : (saveFlags n s).mem = s.mem := by
  induction n <;> simp [saveFlags, *]
@[simp] theorem saveFlags_pc (n : Nat) : (saveFlags n s).pc = s.pc := by
  induction n <;> simp [saveFlags, *]
@[simp] theorem saveFlags_I (n : Nat) : (saveFlags n s).I = s.I := by
  induction n <;> simp [saveFlags, *]
@[simp] theorem saveFlags_V (n : Nat) : (saveFlags n s).V = s.V := by
  induction n <;> simp [saveFlags, *]
@[simp] theorem saveFlags_stack (n : Nat) : (saveFlags n s).stack = s.stack := by
  induction n <;> simp [saveFlags, *]
@[simp] theorem saveFlags_sp (n : Nat) : (saveFlags n s).sp = s.sp := by
  induction n <;> simp [saveFlags, *]
@[simp] theorem saveFlags_DT (n : Nat) : (saveFlags n s).DT = s.DT := by
  induction n <;> simp [saveFlags, *]
@[simp] theorem saveFlags_ST (n : Nat) : (saveFlags n s).ST = s.ST := by
  induction n <;> simp [saveFlags, *]
@[simp] theorem saveFlags_fb (n : Nat) : (saveFlags n s).fb = s.fb := by
  induction n <;> simp [saveFlags, *]
@[simp] theorem saveFlags_dispDirty (n : Nat) : (saveFlags n s).dispDirty = s.dispDirty := by
  induction n <;> simp [saveFlags, *]
@[simp] theorem saveFlags_flagsDirty (n : Nat) : (saveFlags n s).flagsDirty = s.flagsDirty := by
  induction n <;> simp [saveFlags, *]
@[simp] theorem saveFlags_keys (n : Nat) : (saveFlags n s).keys = s.keys := by
  induction n <;> simp [saveFlags, *]
@[simp] theorem saveFlags_wait (n : Nat) : (saveFlags n s).wait = s.wait := by
  induction n <;> simp [saveFlags, *]
@[simp] theorem saveFlags_rng (n : Nat) : (saveFlags n s).rng = s.rng := by
  induction n <;> simp [saveFlags, *]
@[simp] theorem saveFlags_poisoned (n : Nat) : (saveFlags n s).poisoned = s.poisoned := by
  induction n <;> simp [saveFlags, *]
@[simp] theorem saveFlags_cfg (n : Nat) : (saveFlags n s).cfg = s.cfg := by
  induction n <;> simp [saveFlags, *]
@[simp] theorem reg_saveFlags (n : Nat) (r : Reg) : (saveFlags n s).reg r = s.reg r := by
  induction n <;> simp [saveFlags, *]
@[simp] theorem stackEntry_saveFlags (n : Nat) (k : Fin 16) : (saveFlags n s).stackEntry k = s.stackEntry k := by
  induction n <;> simp [saveFlags, *]
@[simp] theorem readByte_saveFlags (n : Nat) (a : Addr) : (saveFlags n s).readByte a = s.readByte a := by
  induction n <;> simp [saveFlags, *]

/-! ### `loadFlags` -/

@[simp] theorem loadFlags_mem (n : Nat) : (loadFlags n s).mem = s.mem := by
  induction n <;> simp [loadFlags, *]
@[simp] theorem loadFlags_pc (n : Nat) : (loadFlags n s).pc = s.pc := by
  induction n <;> simp [loadFlags, *]
@[simp] theorem loadFlags_I (n : Nat) : (loadFlags n s).I = s.I := by
  induction n <;> simp [loadFlags, *]
@[simp] theorem loadFlags_stack (n : Nat) : (loadFlags n s).stack = s.stack := by
  induction n <;> simp [loadFlags, *]
@[simp] theorem loadFlags_sp (n : Nat) : (loadFlags n s).sp = s.sp := by
  induction n <;> simp [loadFlags, *]
@[simp] theorem loadFlags_DT (n : Nat) : (loadFlags n s).DT = s.DT := by
  induction n <;> simp [loadFlags, *]
@[simp] theorem loadFlags_ST (n : Nat) : (loadFlags n s).ST = s.ST := by
  induction n <;> simp [loadFlags, *]
@[simp] theorem loadFlags_fb (n : Nat) : (loadFlags n s).fb = s.fb := by
  induction n <;> simp [loadFlags, *]
@[simp] theorem loadFlags_dispDirty (n : Nat) : (loadFlags n s).dispDirty = s.dispDirty := by
  induction n <;> simp [loadFlags, *]
@[simp] theorem loadFlags_flag (n : Nat) : (loadFlags n s).flag = s.flag := by
  induction n <;> simp [loadFlags, *]
@[simp] theorem loadFlags_flagsDirty (n : Nat) : (loadFlags n s).flagsDirty = s.flagsDirty := by
  induction n <;> simp [loadFlags, *]
@[simp] theorem loadFlags_keys (n : Nat) : (loadFlags n s).keys = s.keys := by
  induction n <;> simp [loadFlags, *]
@[simp] theorem loadFlags_wait (n : Nat) : (loadFlags n s).wait = s.wait := by
  induction n <;> simp [loadFlags, *]
@[simp] theorem loadFlags_rng (n : Nat) : (loadFlags n s).rng = s.rng := by
  induction n <;> simp [loadFlags, *]
@[simp] theorem loadFlags_poisoned (n : Nat) : (loadFlags n s).poisoned = s.poisoned := by
  induction n <;> simp [loadFlags, *]
@[simp] theorem loadFlags_cfg (n : Nat) : (loadFlags n s).cfg = s.cfg := by
  induction n <;> simp [loadFlags, *]
@[simp] theorem flagByte_loadFlags (n : Nat) (k : Fin 8) : (loadFlags n s).flagByte k = s.flagByte k := by
  induction n <;> simp [loadFlags, *]
@[simp] theorem stackEntry_loadFlags (n : Nat) (k : Fin 16) : (loadFlags n s).stackEntry k = s.stackEntry k := by
  induction n <;> simp [loadFlags, *]
@[simp] theorem readByte_loadFlags (n : Nat) (a : Addr) : (loadFlags n s).readByte a = s.readByte a := by
  induction n <;> simp [loadFlags, *]

/-! ### The closed forms -/

theorem wf_storeRegs {s : State} (h : Memory.wf s.cfg s.mem) (n : Nat) :
    Memory.wf s.cfg (storeRegs n s).mem := by
  induction n with
  | zero => exact h
  | succ i ih =>
    have h' : Memory.wf (storeRegs i s).cfg (storeRegs i s).mem := by simpa using ih
    simpa [storeRegs] using State.wf_writeByte h' (indexed s i) (s.reg (regNumber i))

/-- The address `I + i` is `a` exactly when `a` lies `i` above `I`, modulo 4096. -/
theorem eq_indexed_iff {a : Addr} {i : Nat} (hi : i < 4096) : a = indexed s i ↔ (a - s.I).toNat = i := by
  unfold indexed
  constructor
  · rintro rfl
    simp
    have := s.I.isLt
    omega
  · intro h
    apply BitVec.eq_of_toNat_eq
    have := s.I.isLt
    have := a.isLt
    simp [BitVec.toNat_sub] at h
    simp
    omega

/-- After `FX55`, the `n` cells from `I` on hold `V[0]` to `V[n - 1]`, and every other cell is as before (R129). -/
theorem readByte_storeRegs_self {s : State} (h : Memory.wf s.cfg s.mem) {n : Nat} (hn : n ≤ 16) (a : Addr) :
    (storeRegs n s).readByte a =
      if (a - s.I).toNat < n then s.reg (regNumber (a - s.I).toNat) else s.readByte a := by
  induction n with
  | zero => simp [storeRegs]
  | succ i ih =>
    have h' : Memory.wf (storeRegs i s).cfg (storeRegs i s).mem := by simpa using wf_storeRegs h i
    rw [storeRegs, State.readByte_writeByte h', ih (by omega)]
    by_cases e : a = indexed s i
    · have := (eq_indexed_iff s (by omega)).1 e
      rw [if_pos e, if_pos (by omega), this]
    · have : (a - s.I).toNat ≠ i := fun hh => e ((eq_indexed_iff s (by omega)).2 hh)
      rw [if_neg e]
      by_cases hlt : (a - s.I).toNat < i
      · rw [if_pos hlt, if_pos (by omega)]
      · rw [if_neg hlt, if_neg (by omega)]

theorem eq_regNumber_iff {r : Reg} {i : Nat} (hi : i < 16) : r = regNumber i ↔ r.val = i := by
  simp [regNumber, Fin.ext_iff, Nat.mod_eq_of_lt hi]

/-- After `FX65`, `V[0]` to `V[n - 1]` hold the bytes from `I` on, and every other register is as before (R130). -/
theorem reg_loadRegs_self {n : Nat} (hn : n ≤ 16) (r : Reg) :
    (loadRegs n s).reg r = if r.val < n then s.readByte (indexed s r.val) else s.reg r := by
  induction n with
  | zero => simp [loadRegs]
  | succ i ih =>
    rw [loadRegs, State.reg_setReg, ih (by omega)]
    simp only [eq_regNumber_iff (show i < 16 by omega)]
    split
    · next e => rw [if_pos (by omega), e]
    · split
      · rw [if_pos (by omega)]
      · rw [if_neg (by omega)]

/-- After `FX75`, `flag[0]` to `flag[n - 1]` hold `V[0]` to `V[n - 1]`, and every other flag byte is as before
(R155). -/
theorem flagByte_saveFlags_self {n : Nat} (hn : n ≤ 8) (k : Fin 8) :
    (saveFlags n s).flagByte k = if k.val < n then s.reg (regNumber k.val) else s.flagByte k := by
  induction n with
  | zero => simp [saveFlags]
  | succ i ih =>
    have e : k = flagNumber i ↔ k.val = i := by simp [flagNumber, Fin.ext_iff, Nat.mod_eq_of_lt (show i < 8 by omega)]
    rw [saveFlags, State.flagByte_setFlag, ih (by omega)]
    simp only [e]
    split
    · next e => rw [if_pos (by omega), e]
    · split
      · rw [if_pos (by omega)]
      · rw [if_neg (by omega)]

/-- After `FX85`, `V[0]` to `V[n - 1]` hold `flag[0]` to `flag[n - 1]`, and every other register is as before
(R156). -/
theorem reg_loadFlags_self {n : Nat} (hn : n ≤ 8) (r : Reg) :
    (loadFlags n s).reg r = if r.val < n then s.flagByte (flagNumber r.val) else s.reg r := by
  induction n with
  | zero => simp [loadFlags]
  | succ i ih =>
    rw [loadFlags, State.reg_setReg, ih (by omega)]
    simp only [eq_regNumber_iff (show i < 16 by omega)]
    split
    · next e => rw [if_pos (by omega), e]
    · split
      · rw [if_pos (by omega)]
      · rw [if_neg (by omega)]

end Sys2Proof.Machine
end

