-- ==== Sys2Proof/Laws/Display.lean ====
section
/-!
SUPPORT. The draw of a sprite in closed form: which pixels the loops of `DXYN` invert, and when they report a
collision (R137).
-/

namespace Sys2Proof.Machine

theorem twoPow_bit {i j : Nat} (hi : i < 8) : (BitVec.twoPow 8 i).getLsbD j = decide (j = i) := by
  rw [BitVec.getLsbD_twoPow]
  simp [hi, eq_comm]

/-- Inverting one pixel inverts that pixel and no other. -/
theorem pixel_invertPixel (fb : Vector Byte 256) (px qx : Fin 64) (py qy : Fin 32) :
    pixel (invertPixel fb px py) qx qy = (pixel fb qx qy ^^ decide (qx = px ∧ qy = py)) := by
  have key : (pixelByte qx qy = pixelByte px py ∧ pixelBit qx qy = pixelBit px py) ↔ (qx = px ∧ qy = py) := by
    simp only [pixelByte, pixelBit, pixelIndex, Fin.ext_iff]
    omega
  have hbit : pixelBit px py < 8 := Nat.mod_lt _ (by decide)
  unfold pixel invertPixel
  rw [vector_get_set]
  by_cases hb : pixelByte qx qy = pixelByte px py
  · rw [if_pos hb, BitVec.getLsbD_xor, twoPow_bit hbit, hb]
    simp only [← key, hb, true_and]
  · have hp : ¬(qx = px ∧ qy = py) := fun h => hb (key.2 h).1
    simp [hb, hp]

/-- Every pixel of the cleared display is dark. -/
theorem pixel_clearDisplay (px : Fin 64) (py : Fin 32) : pixel clearDisplay px py = false := by
  simp [pixel, clearDisplay, Vector.get_eq_getElem]

/-- The `n` leftmost columns of a row byte have a 1 bit that lands on column `px`. -/
def RowCovers (x0 : Nat) (b : Byte) (n : Nat) (px : Fin 64) : Prop :=
  ∃ c, c < n ∧ (x0 + c) % 64 = px.val ∧ b.getLsbD (7 - c) = true

theorem rowCovers_succ {x0 : Nat} {b : Byte} {n : Nat} {px : Fin 64} :
    RowCovers x0 b (n + 1) px ↔ RowCovers x0 b n px ∨ (px = columnOf (x0 + n) ∧ b.getLsbD (7 - n) = true) := by
  constructor
  · rintro ⟨c, hc, hx, hb⟩
    rcases Nat.lt_succ_iff_lt_or_eq.1 hc with h | rfl
    · exact .inl ⟨c, h, hx, hb⟩
    · exact .inr ⟨Fin.ext hx.symm, hb⟩
  · rintro (⟨c, hc, hx, hb⟩ | ⟨rfl, hb⟩)
    · exact ⟨c, by omega, hx, hb⟩
    · exact ⟨n, by omega, rfl, hb⟩

/-- A column drawn later covers no pixel that an earlier one covered: 8 columns never wrap onto each other. -/
theorem rowCovers_disjoint {x0 : Nat} {b : Byte} {n : Nat} (hn : n < 8) :
    ¬RowCovers x0 b n (columnOf (x0 + n)) := by
  rintro ⟨c, hc, hx, -⟩
  simp only [columnOf] at hx
  omega

theorem bool_xor_iff {a b : Bool} : (a ^^ b) = true ↔ ¬(a = true ↔ b = true) := by
  cases a <;> cases b <;> simp

/-- Two inversions, of regions that do not meet, are one inversion of their union. -/
theorem invert_twice {p s r : Prop} (h : s → ¬r) : ¬(¬(p ↔ s) ↔ r) ↔ ¬(p ↔ (s ∨ r)) := by
  by_cases hp : p <;> by_cases hs : s <;> by_cases hr : r <;> simp_all

/-- The columns of one row: exactly the covered pixels are inverted, and a covered pixel that was lit is a
collision. -/
theorem drawColumns_spec (x0 : Nat) (py : Fin 32) (b : Byte) (k : Canvas) {n : Nat} (hn : n ≤ 8) :
    (∀ qx qy, pixel (drawColumns x0 py b n k).fb qx qy = true ↔
      ¬(pixel k.fb qx qy = true ↔ (qy = py ∧ RowCovers x0 b n qx))) ∧
    ((drawColumns x0 py b n k).collision = true ↔
      k.collision = true ∨ ∃ qx, RowCovers x0 b n qx ∧ pixel k.fb qx py = true) := by
  induction n with
  | zero => simp [drawColumns, RowCovers]
  | succ c ih =>
    obtain ⟨ihp, ihc⟩ := ih (by omega)
    have hd := rowCovers_disjoint (x0 := x0) (b := b) (show c < 8 by omega)
    simp only [drawColumns]
    by_cases hb : b.getLsbD (7 - c) = true
    · have hold : pixel (drawColumns x0 py b c k).fb (columnOf (x0 + c)) py =
          pixel k.fb (columnOf (x0 + c)) py := by
        rw [Bool.eq_iff_iff, ihp]; simp [hd]
      rw [if_pos hb]
      constructor
      · intro qx qy
        simp only [Canvas.plot, pixel_invertPixel, bool_xor_iff, ihp, decide_eq_true_eq, rowCovers_succ, hb, and_true]
        have apart : (qy = py ∧ RowCovers x0 b c qx) → ¬(qx = columnOf (x0 + c) ∧ qy = py) :=
          fun h e => hd (e.1 ▸ h.2)
        rw [invert_twice apart]
        refine not_congr (iff_congr Iff.rfl ?_)
        constructor
        · rintro (h | ⟨h1, h2⟩)
          · exact ⟨h.1, .inl h.2⟩
          · exact ⟨h2, .inr h1⟩
        · rintro ⟨h, h1 | h1⟩
          · exact .inl ⟨h, h1⟩
          · exact .inr ⟨h1, h⟩
      · simp only [Canvas.plot, Bool.or_eq_true, ihc, hold, rowCovers_succ, hb, and_true]
        constructor
        · rintro ((h | ⟨q, hq, hp⟩) | h)
          · exact .inl h
          · exact .inr ⟨q, .inl hq, hp⟩
          · exact .inr ⟨_, .inr rfl, h⟩
        · rintro (h | ⟨q, hq | rfl, hp⟩)
          · exact .inl (.inl h)
          · exact .inl (.inr ⟨q, hq, hp⟩)
          · exact .inr hp
    · rw [if_neg hb]
      have e : ∀ qx, RowCovers x0 b (c + 1) qx ↔ RowCovers x0 b c qx := fun qx => by
        rw [rowCovers_succ]; simp [hb]
      simpa only [e] using ⟨ihp, ihc⟩

/-- A sprite of one row more covers what the rows above cover, and what its last row covers. -/
theorem spriteCovers_succ {s : State} {x0 y0 : Byte} {n : Nat} {px : Fin 64} {py : Fin 32} :
    SpriteCovers s x0 y0 (n + 1) px py ↔ SpriteCovers s x0 y0 n px py ∨
      (py = rowOf (y0.toNat + n) ∧ RowCovers x0.toNat (s.readByte (indexed s n)) 8 px) := by
  constructor
  · rintro ⟨r, c, hr, hc, hx, hy, hb⟩
    rcases Nat.lt_succ_iff_lt_or_eq.1 hr with h | rfl
    · exact .inl ⟨r, c, h, hc, hx, hy, hb⟩
    · exact .inr ⟨Fin.ext hy.symm, c, hc, hx, hb⟩
  · rintro (⟨r, c, hr, hc, hx, hy, hb⟩ | ⟨rfl, c, hc, hx, hb⟩)
    · exact ⟨r, c, by omega, hc, hx, hy, hb⟩
    · exact ⟨n, c, by omega, hc, hx, rfl, hb⟩

/-- A row drawn later lies on no row of the display that an earlier one lay on: up to 32 rows never wrap onto each
other. -/
theorem spriteCovers_disjoint {s : State} {x0 y0 : Byte} {n : Nat} (hn : n < 32) (px : Fin 64) :
    ¬SpriteCovers s x0 y0 n px (rowOf (y0.toNat + n)) := by
  rintro ⟨r, c, hr, -, -, hy, -⟩
  simp only [rowOf] at hy
  omega

/-- The draw in closed form: exactly the pixels the sprite covers are inverted, and a covered pixel that was lit is a
collision (R137). -/
theorem drawRows_spec (s : State) (x0 y0 : Byte) (k : Canvas) {n : Nat} (hn : n ≤ 32) :
    (∀ qx qy, pixel (drawRows s x0.toNat y0.toNat n k).fb qx qy = true ↔
      ¬(pixel k.fb qx qy = true ↔ SpriteCovers s x0 y0 n qx qy)) ∧
    ((drawRows s x0.toNat y0.toNat n k).collision = true ↔
      k.collision = true ∨ ∃ qx qy, SpriteCovers s x0 y0 n qx qy ∧ pixel k.fb qx qy = true) := by
  induction n with
  | zero => simp [drawRows, SpriteCovers]
  | succ r ih =>
    obtain ⟨ihp, ihc⟩ := ih (by omega)
    have hd := spriteCovers_disjoint (s := s) (x0 := x0) (y0 := y0) (show r < 32 by omega)
    obtain ⟨hp, hc⟩ := drawColumns_spec x0.toNat (rowOf (y0.toNat + r)) (s.readByte (indexed s r))
      (drawRows s x0.toNat y0.toNat r k) (Nat.le_refl 8)
    have hold : ∀ qx, pixel (drawRows s x0.toNat y0.toNat r k).fb qx (rowOf (y0.toNat + r)) = true ↔
        pixel k.fb qx (rowOf (y0.toNat + r)) = true := fun qx => by
      rw [ihp]; simp [hd qx]
    simp only [drawRows]
    constructor
    · intro qx qy
      have apart : SpriteCovers s x0 y0 r qx qy →
          ¬(qy = rowOf (y0.toNat + r) ∧ RowCovers x0.toNat (s.readByte (indexed s r)) 8 qx) :=
        fun h e => hd qx (e.1 ▸ h)
      rw [hp, ihp, spriteCovers_succ, invert_twice apart]
    · rw [hc, ihc]
      simp only [hold, spriteCovers_succ]
      constructor
      · rintro ((h | ⟨qx, qy, hq, hl⟩) | ⟨qx, hq, hl⟩)
        · exact .inl h
        · exact .inr ⟨qx, qy, .inl hq, hl⟩
        · exact .inr ⟨qx, _, .inr ⟨rfl, hq⟩, hl⟩
      · rintro (h | ⟨qx, qy, hq | ⟨rfl, hq⟩, hl⟩)
        · exact .inl (.inl h)
        · exact .inl (.inr ⟨qx, qy, hq, hl⟩)
        · exact .inr ⟨qx, hq, hl⟩

/-- The draw of `DXYN`, from a display on which nothing is erased yet. -/
theorem drawSprite_spec (s : State) (x y : Reg) {n : Nat} (hn : n ≤ 32) :
    (∀ qx qy, pixel (drawSprite x y n s).fb qx qy = true ↔
      ¬(pixel s.fb qx qy = true ↔ SpriteCovers s (s.reg x) (s.reg y) n qx qy)) ∧
    ((drawSprite x y n s).collision = true ↔
      ∃ qx qy, SpriteCovers s (s.reg x) (s.reg y) n qx qy ∧ pixel s.fb qx qy = true) := by
  simpa [drawSprite] using drawRows_spec s (s.reg x) (s.reg y) { fb := s.fb, collision := false } hn

end Sys2Proof.Machine
end

