-- ==== Sys2Proof/Laws/Encoding.lean ====
section
/-!
SUPPORT. The fields of an encoded word are the operands that were encoded (R72, R83), for each of the three shapes the
encoder writes.
-/

namespace Sys2Proof

theorem encodeNnn_toNat {op : Nat} (h : op < 16) (nnn : Addr) :
    (encodeNnn op nnn).toNat = op * 0x1000 + nnn.toNat := by
  have := nnn.isLt
  simp [encodeNnn]; omega

theorem encodeXnn_toNat {op : Nat} (h : op < 16) (x : Reg) (nn : Byte) :
    (encodeXnn op x nn).toNat = op * 0x1000 + x.val * 0x100 + nn.toNat := by
  have := nn.isLt
  have := x.isLt
  simp [encodeXnn]; omega

theorem wordOfNibbles_toNat {op x y n : Nat} (h : op < 16) (hx : x < 16) (hy : y < 16) (hn : n < 16) :
    (wordOfNibbles op x y n).toNat = op * 0x1000 + x * 0x100 + y * 0x10 + n := by
  simp [wordOfNibbles]; omega

theorem opOf_toNat (w : InstrWord) : (opOf w).toNat = w.toNat / 0x1000 % 16 := by
  simp [opOf, Nat.shiftRight_eq_div_pow]

theorem xOf_val (w : InstrWord) : (xOf w).val = w.toNat / 0x100 % 16 := by
  simp [xOf, Nat.shiftRight_eq_div_pow]

theorem yOf_val (w : InstrWord) : (yOf w).val = w.toNat / 0x10 % 16 := by
  simp [yOf, Nat.shiftRight_eq_div_pow]

theorem nOf_toNat (w : InstrWord) : (nOf w).toNat = w.toNat % 16 := by
  simp [nOf]

theorem nnOf_toNat (w : InstrWord) : (nnOf w).toNat = w.toNat % 256 := by
  simp [nnOf]

theorem nnnOf_toNat (w : InstrWord) : (nnnOf w).toNat = w.toNat % 4096 := by
  simp [nnnOf]

/-! ### Format NNN -/

@[simp] theorem opOf_encodeNnn {op : Nat} (h : op < 16) (nnn : Addr) :
    opOf (encodeNnn op nnn) = BitVec.ofNat 4 op := by
  apply BitVec.eq_of_toNat_eq
  have := nnn.isLt
  rw [opOf_toNat, encodeNnn_toNat h, BitVec.toNat_ofNat]
  omega

@[simp] theorem nnnOf_encodeNnn {op : Nat} (h : op < 16) (nnn : Addr) : nnnOf (encodeNnn op nnn) = nnn := by
  apply BitVec.eq_of_toNat_eq
  have := nnn.isLt
  rw [nnnOf_toNat, encodeNnn_toNat h]
  omega

/-! ### Formats XNN and XFF -/

@[simp] theorem opOf_encodeXnn {op : Nat} (h : op < 16) (x : Reg) (nn : Byte) :
    opOf (encodeXnn op x nn) = BitVec.ofNat 4 op := by
  apply BitVec.eq_of_toNat_eq
  have := nn.isLt
  have := x.isLt
  rw [opOf_toNat, encodeXnn_toNat h, BitVec.toNat_ofNat]
  omega

@[simp] theorem xOf_encodeXnn {op : Nat} (h : op < 16) (x : Reg) (nn : Byte) : xOf (encodeXnn op x nn) = x := by
  apply Fin.ext
  have := nn.isLt
  have := x.isLt
  rw [xOf_val, encodeXnn_toNat h]
  omega

@[simp] theorem nnOf_encodeXnn {op : Nat} (h : op < 16) (x : Reg) (nn : Byte) : nnOf (encodeXnn op x nn) = nn := by
  apply BitVec.eq_of_toNat_eq
  have := nn.isLt
  have := x.isLt
  rw [nnOf_toNat, encodeXnn_toNat h]
  omega

/-! ### Formats XYF and XYN -/

@[simp] theorem opOf_wordOfNibbles {op n : Nat} (h : op < 16) (x y : Reg) (hn : n < 16) :
    opOf (wordOfNibbles op x y n) = BitVec.ofNat 4 op := by
  apply BitVec.eq_of_toNat_eq
  have := x.isLt
  have := y.isLt
  rw [opOf_toNat, wordOfNibbles_toNat h x.isLt y.isLt hn, BitVec.toNat_ofNat]
  omega

@[simp] theorem xOf_wordOfNibbles {op n : Nat} (h : op < 16) (x y : Reg) (hn : n < 16) :
    xOf (wordOfNibbles op x y n) = x := by
  apply Fin.ext
  have := x.isLt
  have := y.isLt
  rw [xOf_val, wordOfNibbles_toNat h x.isLt y.isLt hn]
  omega

@[simp] theorem yOf_wordOfNibbles {op n : Nat} (h : op < 16) (x y : Reg) (hn : n < 16) :
    yOf (wordOfNibbles op x y n) = y := by
  apply Fin.ext
  have := x.isLt
  have := y.isLt
  rw [yOf_val, wordOfNibbles_toNat h x.isLt y.isLt hn]
  omega

@[simp] theorem nOf_wordOfNibbles {op n : Nat} (h : op < 16) (x y : Reg) (hn : n < 16) :
    nOf (wordOfNibbles op x y n) = BitVec.ofNat 4 n := by
  apply BitVec.eq_of_toNat_eq
  have := x.isLt
  have := y.isLt
  rw [nOf_toNat, wordOfNibbles_toNat h x.isLt y.isLt hn, BitVec.toNat_ofNat]
  omega

/-! ### Masks of the opcode table -/

/-- The mask of formats NNN, XNN and XYN keeps the leading nibble. -/
theorem toNat_and_F000 (w : InstrWord) : (w &&& 0xF000).toNat = w.toNat / 0x1000 * 0x1000 := by
  have bits : ∀ i : Fin 16, (0xF000#16)[i.val] = decide (12 ≤ i.val) := by decide
  have h : w &&& (0xF000 : InstrWord) = (w >>> 12) <<< 12 := by
    ext i hi
    have := bits ⟨i, hi⟩
    simp only at this
    by_cases h12 : 12 ≤ i
    · simp [this, h12, show ¬i < 12 by omega, show 12 + (i - 12) = i by omega, hi]
    · simp [this, h12, show i < 12 by omega]
  have := w.isLt
  rw [h]
  simp [Nat.shiftRight_eq_div_pow, Nat.shiftLeft_eq]
  omega

theorem and_low (w : InstrWord) {k : Nat} (hk : k < 16) : (w &&& BitVec.ofNat 16 (2 ^ k - 1)).toNat = w.toNat % 2 ^ k := by
  have : 2 ^ k - 1 < 2 ^ 16 := by
    have := Nat.pow_lt_pow_right (a := 2) (by decide) hk
    omega
  rw [BitVec.toNat_and, BitVec.toNat_ofNat, Nat.mod_eq_of_lt this, Nat.and_two_pow_sub_one_eq_mod]

theorem toNat_and_split (w hi lo : InstrWord) (h : hi &&& lo = 0) :
    (w &&& (hi ||| lo)).toNat = ((w &&& hi).toNat + (w &&& lo).toNat) % 65536 := by
  have apart : (w &&& hi) &&& (w &&& lo) = 0 := by
    rw [show (w &&& hi) &&& (w &&& lo) = w &&& w &&& (hi &&& lo) by ac_rfl, h]
    simp
  have : w &&& (hi ||| lo) = (w &&& hi) + (w &&& lo) := by
    rw [BitVec.add_eq_or_of_and_eq_zero _ _ apart]
    ext i hi
    simp [Bool.and_or_distrib_left]
  rw [this, BitVec.toNat_add]

/-- The mask of format XYF keeps the leading and the trailing nibble. -/
theorem toNat_and_F00F (w : InstrWord) :
    (w &&& 0xF00F).toNat = w.toNat / 0x1000 * 0x1000 + w.toNat % 0x10 := by
  have := w.isLt
  have h := toNat_and_split w 0xF000 0x000F (by decide)
  rw [toNat_and_F000, show (0x000F : InstrWord) = BitVec.ofNat 16 (2 ^ 4 - 1) from rfl, and_low w (by decide)] at h
  rw [show (0xF00F : InstrWord) = 0xF000 ||| BitVec.ofNat 16 (2 ^ 4 - 1) from rfl, h]
  omega

/-- The mask of format XFF keeps the leading nibble and the low byte. -/
theorem toNat_and_F0FF (w : InstrWord) :
    (w &&& 0xF0FF).toNat = w.toNat / 0x1000 * 0x1000 + w.toNat % 0x100 := by
  have := w.isLt
  have h := toNat_and_split w 0xF000 0x00FF (by decide)
  rw [toNat_and_F000, show (0x00FF : InstrWord) = BitVec.ofNat 16 (2 ^ 8 - 1) from rfl, and_low w (by decide)] at h
  rw [show (0xF0FF : InstrWord) = 0xF000 ||| BitVec.ofNat 16 (2 ^ 8 - 1) from rfl, h]
  omega

end Sys2Proof
end

