-- ==== Sys2Proof/Laws/Stack.lean ====
section
/-!
SUPPORT. Everything the push and the pop can do (R100, R102).
-/

namespace Sys2Proof.Machine

variable {s : State}

theorem pushAndJump_full (h : s.sp.val = 16) (r a : Addr) : pushAndJump s r a = .fault .stackOverflow := by
  simp [pushAndJump, h, raise]

theorem pushAndJump_room (h : s.sp.val < 16) (r a : Addr) :
    pushAndJump s r a =
      .next (((s.setStackEntry ⟨s.sp.val, h⟩ r).setSp ⟨s.sp.val + 1, by omega⟩).setPc a) := by
  simp [pushAndJump, h]

theorem popAndJump_empty (h : s.sp.val = 0) : popAndJump s = .fault .badReturn := by
  simp [popAndJump, h, raise]

theorem popAndJump_used (h : 0 < s.sp.val) :
    popAndJump s = .next ((s.setSp ⟨s.sp.val - 1, by omega⟩).setPc (s.stackEntry ⟨s.sp.val - 1, by omega⟩)) := by
  simp [popAndJump, h]

/-- A push answers a next state exactly when an entry is free, and fails with `StackOverflow` otherwise. -/
theorem pushAndJump_cases (s : State) (r a : Addr) :
    (∃ h : s.sp.val < 16, pushAndJump s r a =
      .next (((s.setStackEntry ⟨s.sp.val, h⟩ r).setSp ⟨s.sp.val + 1, by omega⟩).setPc a)) ∨
    (s.sp.val = 16 ∧ pushAndJump s r a = .fault .stackOverflow) := by
  have := s.sp.isLt
  rcases Nat.lt_or_ge s.sp.val 16 with h | h
  · exact .inl ⟨h, pushAndJump_room h r a⟩
  · exact .inr ⟨by omega, pushAndJump_full (by omega) r a⟩

/-- A pop answers a next state exactly when an entry is in use, and fails with `BadReturn` otherwise. -/
theorem popAndJump_cases (s : State) :
    (∃ _ : 0 < s.sp.val, popAndJump s =
      .next ((s.setSp ⟨s.sp.val - 1, by omega⟩).setPc (s.stackEntry ⟨s.sp.val - 1, by omega⟩))) ∨
    (s.sp.val = 0 ∧ popAndJump s = .fault .badReturn) := by
  rcases Nat.eq_zero_or_pos s.sp.val with h | h
  · exact .inr ⟨h, popAndJump_empty h⟩
  · exact .inl ⟨h, popAndJump_used h⟩

end Sys2Proof.Machine
end

