-- ==== Sys2Proof/Laws/Frame.lean ====
section
/-!
SUPPORT. Frames compose; and the inversion of the four instructions that can fail: what it means that one of them
answers a next state. Every other arm of `exec` is a `.next` by definition.
-/

namespace Sys2Proof.Machine

/-! ### Frames -/

theorem Part.same_refl (p : Part) (s : State) : p.same s s := by
  cases p <;> simp [Part.same]

theorem Part.same_trans {p : Part} {s t u : State} (h : p.same s t) (h' : p.same t u) : p.same s u := by
  cases p <;> simp only [Part.same] at * <;> intros <;> rw [h', h]

theorem KeepsAllBut.refl (changed : List Part) (s : State) : KeepsAllBut changed s s := fun p _ => p.same_refl s

theorem KeepsAllBut.trans {changed : List Part} {s t u : State} (h : KeepsAllBut changed s t)
    (h' : KeepsAllBut changed t u) : KeepsAllBut changed s u :=
  fun p hp => Part.same_trans (h p hp) (h' p hp)

/-- A frame may be widened. -/
theorem KeepsAllBut.mono {few many : List Part} {s t : State} (h : KeepsAllBut few s t) (hsub : few ⊆ many) :
    KeepsAllBut many s t :=
  fun p hp => h p fun hf => hp (hsub hf)

/-! ### The four instructions that can fail -/

variable {s t : State}

/-- A return that answers a next state released entry `k` of the stack (R100). -/
theorem exec_ret_next (h : exec .ret s = .next t) :
    ∃ k : Fin 16, s.sp.val = k.val + 1 ∧ t = (s.setSp ⟨k.val, by omega⟩).setPc (s.stackEntry k) := by
  rcases popAndJump_cases s with ⟨hpos, e⟩ | ⟨-, e⟩
  · cases (show Host.Outcome.next _ = Host.Outcome.next t from e.symm.trans h)
    have := s.sp.isLt
    exact ⟨⟨s.sp.val - 1, by omega⟩, by simp; omega, rfl⟩
  · cases (show Host.Outcome.fault _ = Host.Outcome.next t from e.symm.trans h)

/-- A call that answers a next state filled entry `k = sp` of the stack (R102). -/
theorem exec_call_next {nnn : Addr} (h : exec (.call nnn) s = .next t) :
    ∃ k : Fin 16, s.sp.val = k.val ∧
      t = ((s.setStackEntry k (s.pc + 2)).setSp ⟨k.val + 1, by omega⟩).setPc nnn := by
  rcases pushAndJump_cases s (nextPc s) nnn with ⟨hlt, e⟩ | ⟨-, e⟩
  · cases (show Host.Outcome.next _ = Host.Outcome.next t from e.symm.trans h)
    exact ⟨⟨s.sp.val, hlt⟩, rfl, rfl⟩
  · cases (show Host.Outcome.fault _ = Host.Outcome.next t from e.symm.trans h)

/-- `FX75` answers a next state only with `x` up to 7 (R155, R157). -/
theorem exec_savef_next {x : Reg} (h : exec (.savef x) s = .next t) :
    x.val ≤ 7 ∧ t = ((saveFlags (x.val + 1) s).setFlagsDirty true).advance := by
  simp only [exec, execSavef] at h
  split at h <;> cases h
  exact ⟨by omega, rfl⟩

/-- `FX85` answers a next state only with `x` up to 7 (R156, R157). -/
theorem exec_loadf_next {x : Reg} (h : exec (.loadf x) s = .next t) :
    x.val ≤ 7 ∧ t = (loadFlags (x.val + 1) s).advance := by
  simp only [exec, execLoadf] at h
  split at h <;> cases h
  exact ⟨by omega, rfl⟩

end Sys2Proof.Machine
end

