-- ==== Sys2Proof/Laws/Step.lean ====
section
/-!
SUPPORT. Everything a step and a transaction can do: the inversions later proofs cite instead of unfolding the step.
-/

namespace Sys2Proof.Machine

variable {s t : State}

theorem step_poisoned (h : s.poisoned = true) : step s = .refused .poisoned := by
  simp [step, stepCycle, h]

theorem step_waiting (hp : s.poisoned = false) {r : Reg} (hw : s.wait = some r) : step s = .next s := by
  simp [step, stepCycle, hp, hw]

theorem step_ready (hp : s.poisoned = false) (hw : s.wait = none) : step s = runWord (fetch16 s s.pc) s := by
  simp [step, stepCycle, hp, hw]

theorem runWord_legal {w : InstrWord} {i : Instr} (h : decode w = some i) (s : State) : runWord w s = exec i s := by
  simp [runWord, h]

theorem runWord_illegal {w : InstrWord} (h : decode w = none) (s : State) :
    runWord w s = .fault .illegalOpcode := by
  simp [runWord, h, raise]

/-- A step is refused, gated, an illegal word, or the execution of the decoded instruction. -/
theorem step_cases (s : State) :
    (s.poisoned = true ∧ step s = .refused .poisoned) ∨
    (s.poisoned = false ∧ (∃ r, s.wait = some r) ∧ step s = .next s) ∨
    (s.poisoned = false ∧ s.wait = none ∧ decode (fetch16 s s.pc) = none ∧ step s = .fault .illegalOpcode) ∨
    (s.poisoned = false ∧ s.wait = none ∧ ∃ i, decode (fetch16 s s.pc) = some i ∧ step s = exec i s) := by
  cases hp : s.poisoned with
  | true => exact .inl ⟨rfl, step_poisoned hp⟩
  | false =>
    cases hw : s.wait with
    | some r => exact .inr (.inl ⟨rfl, ⟨r, rfl⟩, step_waiting hp hw⟩)
    | none =>
      cases hd : decode (fetch16 s s.pc) with
      | none => exact .inr (.inr (.inl ⟨rfl, rfl, rfl, (step_ready hp hw).trans (runWord_illegal hd s)⟩))
      | some i => exact .inr (.inr (.inr ⟨rfl, rfl, i, rfl, (step_ready hp hw).trans (runWord_legal hd s)⟩))

/-- A step that answers a next state was gated, or executed the decoded instruction. -/
theorem step_next_cases (h : step s = .next t) :
    s.poisoned = false ∧ ((∃ r, s.wait = some r) ∧ t = s ∨
      s.wait = none ∧ ∃ i, decode (fetch16 s s.pc) = some i ∧ exec i s = .next t) := by
  rcases step_cases s with ⟨-, e⟩ | ⟨hp, hw, e⟩ | ⟨-, -, -, e⟩ | ⟨hp, hw, i, hd, e⟩ <;> rw [e] at h
  · cases h
  · cases h; exact ⟨hp, .inl ⟨hw, rfl⟩⟩
  · cases h
  · exact ⟨hp, .inr ⟨hw, i, hd, h⟩⟩

theorem stepResponse_next (h : step s = .next t) : stepResponse s = .ok { state := t, status := .ok } := by
  simp [stepResponse, h]

theorem stepResponse_fault {e : Fault} (h : step s = .fault e) :
    stepResponse s = .ok { state := s, status := .fail e } := by
  simp [stepResponse, h]

theorem harmless_ready (hp : s.poisoned = false) (f : State → State) :
    harmless f s = .ok { state := f s, status := .ok } := by
  simp [harmless, hp]

theorem harmless_poisoned (hp : s.poisoned = true) (f : State → State) : harmless f s = .error .poisoned := by
  simp [harmless, hp]

/-- A response to a `step` is that of its next state, or the failure that leaves the state as it was. -/
theorem stepResponse_cases {r : Response} (h : stepResponse s = .ok r) :
    (step s = .next r.state ∧ r.status = .ok) ∨ (∃ e, step s = .fault e ∧ r.state = s ∧ r.status = .fail e) := by
  unfold stepResponse at h
  split at h
  · next t e => cases h; exact .inl ⟨e, rfl⟩
  · next e he => cases h; exact .inr ⟨e, he, rfl, rfl⟩
  · cases h

end Sys2Proof.Machine
end

