-- ==== Sys2Proof/Laws/Host.lean ====
section
/-!
SUPPORT. Everything the host operations can do: the load of a program, the ticks, the keys.
-/

namespace Sys2Proof.Machine

/-! ### init -/

theorem wf_loadProgram {c : Cfg} (program : List Byte) {m : Memory} {a : Nat} (h : Memory.wf c m)
    (hfit : a + program.length ≤ 4096) : Memory.wf c (loadProgram c m a program) := by
  induction program generalizing m a with
  | nil => exact h
  | cons b rest ih =>
    rw [List.length_cons] at hfit
    exact ih (Memory.wf_write h (by omega) b) (by omega)

/-- The loaded image: byte `i` of the program at `a + i`, every other cell as before (R200, R201). -/
theorem read_loadProgram {c : Cfg} (program : List Byte) {m : Memory} {a : Nat} (h : Memory.wf c m)
    (hfit : a + program.length ≤ 4096) (x : Nat) :
    Memory.read c (loadProgram c m a program) x =
      if a ≤ x then (program[x - a]?).getD (Memory.read c m x) else Memory.read c m x := by
  induction program generalizing m a with
  | nil => simp [loadProgram]
  | cons b rest ih =>
    rw [List.length_cons] at hfit
    have hw := Memory.wf_write h (show a < 4096 by omega) b
    rw [loadProgram, ih hw (by omega), Memory.read_write h]
    by_cases h1 : a + 1 ≤ x
    · rw [if_pos h1, if_neg (by omega), if_pos (show a ≤ x by omega), show x - a = (x - (a + 1)) + 1 by omega,
        List.getElem?_cons_succ]
    · by_cases h2 : a = x
      · subst h2
        rw [if_neg h1, if_pos rfl, if_pos (Nat.le_refl a)]
        simp
      · rw [if_neg h1, if_neg h2, if_neg (by omega)]

theorem init_tooLong {program : List Byte} (h : 3584 < program.length) (seed : Seed) (f : PackedFlags) (s : State) :
    init program seed f s =
      { state := poisonedBlock s.cfg (unspecifiedAfterInit program seed f s), status := .fail .programTooLong } := by
  simp [init, maxProgramLen, programBase, h]

theorem init_fits {program : List Byte} (h : program.length ≤ 3584) (seed : Seed) (f : PackedFlags) (s : State) :
    init program seed f s =
      { state := { State.afterReset s.cfg seed with
          mem := loadProgram s.cfg [] 0x200 program, flag := unpackFlags f }, status := .ok } := by
  simp [init, maxProgramLen, programBase, Nat.not_lt.2 h]

theorem wf_ofCells (c : Cfg) (cells : List Host.Cell) : Memory.wf c (Memory.ofCells c cells) := by
  unfold Memory.ofCells
  suffices ∀ m : Memory, Memory.wf c m →
      Memory.wf c (cells.foldl (fun m p => Memory.write c m (p.1 % 4096) p.2) m) from this [] Memory.wf_nil
  induction cells with
  | nil => exact fun _ h => h
  | cons p rest ih => exact fun m h => ih _ (Memory.wf_write h (Nat.mod_lt _ (by decide)) p.2)

@[simp] theorem flagByte_unpackFlags (s : State) (f : PackedFlags) (k : Fin 8) :
    ({ s with flag := unpackFlags f } : State).flagByte k = f.extractLsb' (8 * k.val) 8 := by
  simp [State.flagByte, unpackFlags, Vector.get_eq_getElem]

/-! ### tick -/

theorem countDown_toNat (t : Byte) : (countDown t).toNat = t.toNat - 1 := by
  unfold countDown
  split
  · next h => simp [h]
  · next h =>
    have : t.toNat ≠ 0 := fun e => h (BitVec.eq_of_toNat_eq e)
    have := t.isLt
    rw [BitVec.toNat_sub_of_le (by simp [BitVec.le_def]; omega)]
    simp

/-! ### set_keys -/

/-- The lowest key of a mask: its bit is 1 and every lower bit is 0 (R164). -/
theorem lowestKey_some {m : KeyMask} {k : Reg} (h : lowestKey m = some k) :
    m.getLsbD k.val = true ∧ ∀ j : Reg, j.val < k.val → m.getLsbD j.val = false := by
  unfold lowestKey at h
  obtain ⟨hk, i, hi, hik, hlow⟩ := List.find?_eq_some_iff_getElem.1 h
  rw [List.getElem_finRange] at hik
  refine ⟨hk, fun j hj => ?_⟩
  have hij : k.val = i := by rw [← hik]; rfl
  have := hlow j.val (by omega)
  rw [List.getElem_finRange] at this
  simpa using this

theorem lowestKey_none {m : KeyMask} : lowestKey m = none ↔ m = 0 := by
  unfold lowestKey
  rw [List.find?_eq_none]
  constructor
  · intro h
    apply BitVec.eq_of_getLsbD_eq
    intro i hi
    simpa using h ⟨i, hi⟩ (List.mem_finRange _)
  · rintro rfl i -
    simp

/-- A key press while waiting is captured; otherwise only the latch changes (R164). -/
theorem setKeys_cases (mask : KeyMask) (s : State) :
    (∃ r k, s.wait = some r ∧ lowestKey (newlyPressed s mask) = some k ∧
      setKeys mask s = ((s.setReg r (BitVec.ofNat 8 k.val)).setWait none).setKeyLatch mask) ∨
    ((s.wait = none ∨ newlyPressed s mask = 0) ∧ setKeys mask s = s.setKeyLatch mask) := by
  cases hw : s.wait with
  | none => exact .inr ⟨.inl rfl, by simp [setKeys, hw]⟩
  | some r =>
    cases hk : lowestKey (newlyPressed s mask) with
    | none => exact .inr ⟨.inr (lowestKey_none.1 hk), by simp [setKeys, hw, hk]⟩
    | some k => exact .inl ⟨r, k, rfl, rfl, by simp [setKeys, hw, hk]⟩

end Sys2Proof.Machine
end

