-- ==== Sys2Proof/Laws/Outputs.lean ====
section
/-!
SUPPORT. The packed value of the flag store, byte by byte (48_host_operations.md R171).
-/

namespace Sys2Proof.Machine

theorem packLittleEndian_bit (f : Fin 8 → Byte) (k : Fin 8) {i : Nat} (hi : i < 8) :
    (packLittleEndian f).getLsbD (8 * k.val + i) = (f k).getLsbD i := by
  obtain ⟨k, hk⟩ := k
  have : k = 0 ∨ k = 1 ∨ k = 2 ∨ k = 3 ∨ k = 4 ∨ k = 5 ∨ k = 6 ∨ k = 7 := by omega
  unfold packLittleEndian
  rcases this with rfl | rfl | rfl | rfl | rfl | rfl | rfl | rfl <;>
    simp only [BitVec.getLsbD_append] <;> (repeat rw [if_neg (by omega)]) <;> try rw [if_pos (by omega)]
  all_goals congr 1; omega

/-- Byte `k` of the packed value is byte `k` of what was packed. -/
theorem packLittleEndian_byte (f : Fin 8 → Byte) (k : Fin 8) :
    (packLittleEndian f).extractLsb' (8 * k.val) 8 = f k := by
  apply BitVec.eq_of_getLsbD_eq
  intro i hi
  rw [BitVec.getLsbD_extractLsb', packLittleEndian_bit f k hi]
  simp [hi]

/-- Packing the bytes of a value gives the value back. -/
theorem packLittleEndian_unpack (v : PackedFlags) :
    packLittleEndian (fun i => v.extractLsb' (8 * i.val) 8) = v := by
  apply BitVec.eq_of_getLsbD_eq
  intro i hi
  have h := packLittleEndian_bit (fun i => v.extractLsb' (8 * i.val) 8) ⟨i / 8, by omega⟩
    (Nat.mod_lt i (show 8 > 0 by decide))
  simp only [Nat.div_add_mod, BitVec.getLsbD_extractLsb', Nat.mod_lt _ (show 8 > 0 by decide), decide_true,
    Bool.true_and] at h
  exact h

end Sys2Proof.Machine
end

