-- ==== Sys2Proof/Laws/PerInstr.lean ====
section
/-!
SUPPORT. The family RowFits: the encoded word of a well-formed instruction is a word of that instruction's own row of
the opcode table (R76, R83), one lemma per constructor.
-/

/-- The word of `i` fits the row of the opcode table that bears the mnemonic of `i`. -/
def Sys2Proof.Laws.RowFits.Statement (i : Sys2Proof.Instr) : Prop :=
  i.wellFormed = true → ∃ row ∈ Sys2Proof.opcodeTable, row.mnemonic = Sys2Proof.mnemonicOf i ∧
    row.holds (Sys2Proof.encode i) = true

namespace Sys2Proof

/-- A row holds of a word when the masked word has the pattern's value. -/
theorem row_holds_of_toNat {row : OpcodeRow} {w : InstrWord} (h : (w &&& row.mask).toNat = row.pattern.toNat) :
    row.holds w = true := by
  simpa [OpcodeRow.holds] using BitVec.eq_of_toNat_eq h

theorem fits_nnn {op : Nat} (h : op < 16) (nnn : Addr) (m : String) :
    (OpcodeRow.mk m 0xF000 (BitVec.ofNat 16 (op * 0x1000))).holds (encodeNnn op nnn) = true := by
  have := nnn.isLt
  apply row_holds_of_toNat
  rw [toNat_and_F000, encodeNnn_toNat h, BitVec.toNat_ofNat]
  omega

theorem fits_xnn {op : Nat} (h : op < 16) (x : Reg) (nn : Byte) (m : String) :
    (OpcodeRow.mk m 0xF000 (BitVec.ofNat 16 (op * 0x1000))).holds (encodeXnn op x nn) = true := by
  have := nn.isLt
  have := x.isLt
  apply row_holds_of_toNat
  rw [toNat_and_F000, encodeXnn_toNat h, BitVec.toNat_ofNat]
  omega

theorem fits_xff {op : Nat} (h : op < 16) (x : Reg) (f : Byte) (m : String) :
    (OpcodeRow.mk m 0xF0FF (BitVec.ofNat 16 (op * 0x1000 + f.toNat))).holds (encodeXnn op x f) = true := by
  have := f.isLt
  have := x.isLt
  apply row_holds_of_toNat
  rw [toNat_and_F0FF, encodeXnn_toNat h, BitVec.toNat_ofNat]
  omega

theorem fits_xyf {op n : Nat} (h : op < 16) (hn : n < 16) (x y : Reg) (m : String) :
    (OpcodeRow.mk m 0xF00F (BitVec.ofNat 16 (op * 0x1000 + n))).holds (wordOfNibbles op x y n) = true := by
  have := x.isLt
  have := y.isLt
  apply row_holds_of_toNat
  rw [toNat_and_F00F, wordOfNibbles_toNat h x.isLt y.isLt hn, BitVec.toNat_ofNat]
  omega

theorem fits_xyn {op n : Nat} (h : op < 16) (hn : n < 16) (x y : Reg) (m : String) :
    (OpcodeRow.mk m 0xF000 (BitVec.ofNat 16 (op * 0x1000))).holds (wordOfNibbles op x y n) = true := by
  have := x.isLt
  have := y.isLt
  apply row_holds_of_toNat
  rw [toNat_and_F000, wordOfNibbles_toNat h x.isLt y.isLt hn, BitVec.toNat_ofNat]
  omega

end Sys2Proof

theorem Sys2Proof.Laws.RowFits.cls : Sys2Proof.Laws.RowFits.Statement .cls := fun _ =>
  ⟨⟨"CLS", 0xFFFF, 0x00E0⟩, by simp [Sys2Proof.opcodeTable, Sys2Proof.opcodeRowsLow, Sys2Proof.opcodeRowsMiddle, Sys2Proof.opcodeRowsHigh], rfl,
    by decide⟩

theorem Sys2Proof.Laws.RowFits.ret : Sys2Proof.Laws.RowFits.Statement .ret := fun _ =>
  ⟨⟨"RET", 0xFFFF, 0x00EE⟩, by simp [Sys2Proof.opcodeTable, Sys2Proof.opcodeRowsLow, Sys2Proof.opcodeRowsMiddle, Sys2Proof.opcodeRowsHigh], rfl,
    by decide⟩

theorem Sys2Proof.Laws.RowFits.jp (nnn : Sys2Proof.Addr) : Sys2Proof.Laws.RowFits.Statement (.jp nnn) := fun _ =>
  ⟨⟨"JP", 0xF000, 0x1000⟩, by simp [Sys2Proof.opcodeTable, Sys2Proof.opcodeRowsLow, Sys2Proof.opcodeRowsMiddle, Sys2Proof.opcodeRowsHigh], rfl,
    Sys2Proof.fits_nnn (op := 0x1) (by decide) nnn _⟩

theorem Sys2Proof.Laws.RowFits.call (nnn : Sys2Proof.Addr) : Sys2Proof.Laws.RowFits.Statement (.call nnn) := fun _ =>
  ⟨⟨"CALL", 0xF000, 0x2000⟩, by simp [Sys2Proof.opcodeTable, Sys2Proof.opcodeRowsLow, Sys2Proof.opcodeRowsMiddle, Sys2Proof.opcodeRowsHigh], rfl,
    Sys2Proof.fits_nnn (op := 0x2) (by decide) nnn _⟩

theorem Sys2Proof.Laws.RowFits.seqi (x : Sys2Proof.Reg) (nn : Sys2Proof.Byte) : Sys2Proof.Laws.RowFits.Statement (.seqi x nn) := fun _ =>
  ⟨⟨"SEQI", 0xF000, 0x3000⟩, by simp [Sys2Proof.opcodeTable, Sys2Proof.opcodeRowsLow, Sys2Proof.opcodeRowsMiddle, Sys2Proof.opcodeRowsHigh], rfl,
    Sys2Proof.fits_xnn (op := 0x3) (by decide) x nn _⟩

theorem Sys2Proof.Laws.RowFits.snei (x : Sys2Proof.Reg) (nn : Sys2Proof.Byte) : Sys2Proof.Laws.RowFits.Statement (.snei x nn) := fun _ =>
  ⟨⟨"SNEI", 0xF000, 0x4000⟩, by simp [Sys2Proof.opcodeTable, Sys2Proof.opcodeRowsLow, Sys2Proof.opcodeRowsMiddle, Sys2Proof.opcodeRowsHigh], rfl,
    Sys2Proof.fits_xnn (op := 0x4) (by decide) x nn _⟩

theorem Sys2Proof.Laws.RowFits.seq (x y : Sys2Proof.Reg) : Sys2Proof.Laws.RowFits.Statement (.seq x y) := fun _ =>
  ⟨⟨"SEQ", 0xF00F, 0x5000⟩, by simp [Sys2Proof.opcodeTable, Sys2Proof.opcodeRowsLow, Sys2Proof.opcodeRowsMiddle, Sys2Proof.opcodeRowsHigh], rfl,
    Sys2Proof.fits_xyf (op := 0x5) (n := 0x0) (by decide) (by decide) x y _⟩

theorem Sys2Proof.Laws.RowFits.ldi (x : Sys2Proof.Reg) (nn : Sys2Proof.Byte) : Sys2Proof.Laws.RowFits.Statement (.ldi x nn) := fun _ =>
  ⟨⟨"LDI", 0xF000, 0x6000⟩, by simp [Sys2Proof.opcodeTable, Sys2Proof.opcodeRowsLow, Sys2Proof.opcodeRowsMiddle, Sys2Proof.opcodeRowsHigh], rfl,
    Sys2Proof.fits_xnn (op := 0x6) (by decide) x nn _⟩

theorem Sys2Proof.Laws.RowFits.addi (x : Sys2Proof.Reg) (nn : Sys2Proof.Byte) : Sys2Proof.Laws.RowFits.Statement (.addi x nn) := fun _ =>
  ⟨⟨"ADDI", 0xF000, 0x7000⟩, by simp [Sys2Proof.opcodeTable, Sys2Proof.opcodeRowsLow, Sys2Proof.opcodeRowsMiddle, Sys2Proof.opcodeRowsHigh], rfl,
    Sys2Proof.fits_xnn (op := 0x7) (by decide) x nn _⟩

theorem Sys2Proof.Laws.RowFits.mov (x y : Sys2Proof.Reg) : Sys2Proof.Laws.RowFits.Statement (.mov x y) := fun _ =>
  ⟨⟨"MOV", 0xF00F, 0x8000⟩, by simp [Sys2Proof.opcodeTable, Sys2Proof.opcodeRowsLow, Sys2Proof.opcodeRowsMiddle, Sys2Proof.opcodeRowsHigh], rfl,
    Sys2Proof.fits_xyf (op := 0x8) (n := 0x0) (by decide) (by decide) x y _⟩

theorem Sys2Proof.Laws.RowFits.or (x y : Sys2Proof.Reg) : Sys2Proof.Laws.RowFits.Statement (.or x y) := fun _ =>
  ⟨⟨"OR", 0xF00F, 0x8001⟩, by simp [Sys2Proof.opcodeTable, Sys2Proof.opcodeRowsLow, Sys2Proof.opcodeRowsMiddle, Sys2Proof.opcodeRowsHigh], rfl,
    Sys2Proof.fits_xyf (op := 0x8) (n := 0x1) (by decide) (by decide) x y _⟩

theorem Sys2Proof.Laws.RowFits.and (x y : Sys2Proof.Reg) : Sys2Proof.Laws.RowFits.Statement (.and x y) := fun _ =>
  ⟨⟨"AND", 0xF00F, 0x8002⟩, by simp [Sys2Proof.opcodeTable, Sys2Proof.opcodeRowsLow, Sys2Proof.opcodeRowsMiddle, Sys2Proof.opcodeRowsHigh], rfl,
    Sys2Proof.fits_xyf (op := 0x8) (n := 0x2) (by decide) (by decide) x y _⟩

theorem Sys2Proof.Laws.RowFits.xor (x y : Sys2Proof.Reg) : Sys2Proof.Laws.RowFits.Statement (.xor x y) := fun _ =>
  ⟨⟨"XOR", 0xF00F, 0x8003⟩, by simp [Sys2Proof.opcodeTable, Sys2Proof.opcodeRowsLow, Sys2Proof.opcodeRowsMiddle, Sys2Proof.opcodeRowsHigh], rfl,
    Sys2Proof.fits_xyf (op := 0x8) (n := 0x3) (by decide) (by decide) x y _⟩

theorem Sys2Proof.Laws.RowFits.add (x y : Sys2Proof.Reg) : Sys2Proof.Laws.RowFits.Statement (.add x y) := fun _ =>
  ⟨⟨"ADD", 0xF00F, 0x8004⟩, by simp [Sys2Proof.opcodeTable, Sys2Proof.opcodeRowsLow, Sys2Proof.opcodeRowsMiddle, Sys2Proof.opcodeRowsHigh], rfl,
    Sys2Proof.fits_xyf (op := 0x8) (n := 0x4) (by decide) (by decide) x y _⟩

theorem Sys2Proof.Laws.RowFits.sub (x y : Sys2Proof.Reg) : Sys2Proof.Laws.RowFits.Statement (.sub x y) := fun _ =>
  ⟨⟨"SUB", 0xF00F, 0x8005⟩, by simp [Sys2Proof.opcodeTable, Sys2Proof.opcodeRowsLow, Sys2Proof.opcodeRowsMiddle, Sys2Proof.opcodeRowsHigh], rfl,
    Sys2Proof.fits_xyf (op := 0x8) (n := 0x5) (by decide) (by decide) x y _⟩

theorem Sys2Proof.Laws.RowFits.shr (x y : Sys2Proof.Reg) : Sys2Proof.Laws.RowFits.Statement (.shr x y) := fun _ =>
  ⟨⟨"SHR", 0xF00F, 0x8006⟩, by simp [Sys2Proof.opcodeTable, Sys2Proof.opcodeRowsLow, Sys2Proof.opcodeRowsMiddle, Sys2Proof.opcodeRowsHigh], rfl,
    Sys2Proof.fits_xyf (op := 0x8) (n := 0x6) (by decide) (by decide) x y _⟩

theorem Sys2Proof.Laws.RowFits.subn (x y : Sys2Proof.Reg) : Sys2Proof.Laws.RowFits.Statement (.subn x y) := fun _ =>
  ⟨⟨"SUBN", 0xF00F, 0x8007⟩, by simp [Sys2Proof.opcodeTable, Sys2Proof.opcodeRowsLow, Sys2Proof.opcodeRowsMiddle, Sys2Proof.opcodeRowsHigh], rfl,
    Sys2Proof.fits_xyf (op := 0x8) (n := 0x7) (by decide) (by decide) x y _⟩

theorem Sys2Proof.Laws.RowFits.shl (x y : Sys2Proof.Reg) : Sys2Proof.Laws.RowFits.Statement (.shl x y) := fun _ =>
  ⟨⟨"SHL", 0xF00F, 0x800E⟩, by simp [Sys2Proof.opcodeTable, Sys2Proof.opcodeRowsLow, Sys2Proof.opcodeRowsMiddle, Sys2Proof.opcodeRowsHigh], rfl,
    Sys2Proof.fits_xyf (op := 0x8) (n := 0xE) (by decide) (by decide) x y _⟩

theorem Sys2Proof.Laws.RowFits.sne (x y : Sys2Proof.Reg) : Sys2Proof.Laws.RowFits.Statement (.sne x y) := fun _ =>
  ⟨⟨"SNE", 0xF00F, 0x9000⟩, by simp [Sys2Proof.opcodeTable, Sys2Proof.opcodeRowsLow, Sys2Proof.opcodeRowsMiddle, Sys2Proof.opcodeRowsHigh], rfl,
    Sys2Proof.fits_xyf (op := 0x9) (n := 0x0) (by decide) (by decide) x y _⟩

theorem Sys2Proof.Laws.RowFits.seti (nnn : Sys2Proof.Addr) : Sys2Proof.Laws.RowFits.Statement (.seti nnn) := fun _ =>
  ⟨⟨"SETI", 0xF000, 0xA000⟩, by simp [Sys2Proof.opcodeTable, Sys2Proof.opcodeRowsLow, Sys2Proof.opcodeRowsMiddle, Sys2Proof.opcodeRowsHigh], rfl,
    Sys2Proof.fits_nnn (op := 0xA) (by decide) nnn _⟩

theorem Sys2Proof.Laws.RowFits.jpv0 (nnn : Sys2Proof.Addr) : Sys2Proof.Laws.RowFits.Statement (.jpv0 nnn) := fun _ =>
  ⟨⟨"JPV0", 0xF000, 0xB000⟩, by simp [Sys2Proof.opcodeTable, Sys2Proof.opcodeRowsLow, Sys2Proof.opcodeRowsMiddle, Sys2Proof.opcodeRowsHigh], rfl,
    Sys2Proof.fits_nnn (op := 0xB) (by decide) nnn _⟩

theorem Sys2Proof.Laws.RowFits.rnd (x : Sys2Proof.Reg) (nn : Sys2Proof.Byte) : Sys2Proof.Laws.RowFits.Statement (.rnd x nn) := fun _ =>
  ⟨⟨"RND", 0xF000, 0xC000⟩, by simp [Sys2Proof.opcodeTable, Sys2Proof.opcodeRowsLow, Sys2Proof.opcodeRowsMiddle, Sys2Proof.opcodeRowsHigh], rfl,
    Sys2Proof.fits_xnn (op := 0xC) (by decide) x nn _⟩

theorem Sys2Proof.Laws.RowFits.drw (x y : Sys2Proof.Reg) (n : Nat) : Sys2Proof.Laws.RowFits.Statement (.drw x y n) := fun h =>
  ⟨⟨"DRW", 0xF000, 0xD000⟩, by simp [Sys2Proof.opcodeTable, Sys2Proof.opcodeRowsLow, Sys2Proof.opcodeRowsMiddle, Sys2Proof.opcodeRowsHigh], rfl,
    Sys2Proof.fits_xyn (op := 0xD) (by decide) (by simp [Sys2Proof.Instr.wellFormed] at h; omega) x y _⟩

theorem Sys2Proof.Laws.RowFits.skp (x : Sys2Proof.Reg) : Sys2Proof.Laws.RowFits.Statement (.skp x) := fun _ =>
  ⟨⟨"SKP", 0xF0FF, 0xE09E⟩, by simp [Sys2Proof.opcodeTable, Sys2Proof.opcodeRowsLow, Sys2Proof.opcodeRowsMiddle, Sys2Proof.opcodeRowsHigh], rfl,
    Sys2Proof.fits_xff (op := 0xE) (by decide) x 0x9E _⟩

theorem Sys2Proof.Laws.RowFits.sknp (x : Sys2Proof.Reg) : Sys2Proof.Laws.RowFits.Statement (.sknp x) := fun _ =>
  ⟨⟨"SKNP", 0xF0FF, 0xE0A1⟩, by simp [Sys2Proof.opcodeTable, Sys2Proof.opcodeRowsLow, Sys2Proof.opcodeRowsMiddle, Sys2Proof.opcodeRowsHigh], rfl,
    Sys2Proof.fits_xff (op := 0xE) (by decide) x 0xA1 _⟩

theorem Sys2Proof.Laws.RowFits.getdt (x : Sys2Proof.Reg) : Sys2Proof.Laws.RowFits.Statement (.getdt x) := fun _ =>
  ⟨⟨"GETDT", 0xF0FF, 0xF007⟩, by simp [Sys2Proof.opcodeTable, Sys2Proof.opcodeRowsLow, Sys2Proof.opcodeRowsMiddle, Sys2Proof.opcodeRowsHigh], rfl,
    Sys2Proof.fits_xff (op := 0xF) (by decide) x 0x07 _⟩

theorem Sys2Proof.Laws.RowFits.waitk (x : Sys2Proof.Reg) : Sys2Proof.Laws.RowFits.Statement (.waitk x) := fun _ =>
  ⟨⟨"WAITK", 0xF0FF, 0xF00A⟩, by simp [Sys2Proof.opcodeTable, Sys2Proof.opcodeRowsLow, Sys2Proof.opcodeRowsMiddle, Sys2Proof.opcodeRowsHigh], rfl,
    Sys2Proof.fits_xff (op := 0xF) (by decide) x 0x0A _⟩

theorem Sys2Proof.Laws.RowFits.setdt (x : Sys2Proof.Reg) : Sys2Proof.Laws.RowFits.Statement (.setdt x) := fun _ =>
  ⟨⟨"SETDT", 0xF0FF, 0xF015⟩, by simp [Sys2Proof.opcodeTable, Sys2Proof.opcodeRowsLow, Sys2Proof.opcodeRowsMiddle, Sys2Proof.opcodeRowsHigh], rfl,
    Sys2Proof.fits_xff (op := 0xF) (by decide) x 0x15 _⟩

theorem Sys2Proof.Laws.RowFits.setst (x : Sys2Proof.Reg) : Sys2Proof.Laws.RowFits.Statement (.setst x) := fun _ =>
  ⟨⟨"SETST", 0xF0FF, 0xF018⟩, by simp [Sys2Proof.opcodeTable, Sys2Proof.opcodeRowsLow, Sys2Proof.opcodeRowsMiddle, Sys2Proof.opcodeRowsHigh], rfl,
    Sys2Proof.fits_xff (op := 0xF) (by decide) x 0x18 _⟩

theorem Sys2Proof.Laws.RowFits.addix (x : Sys2Proof.Reg) : Sys2Proof.Laws.RowFits.Statement (.addix x) := fun _ =>
  ⟨⟨"ADDIX", 0xF0FF, 0xF01E⟩, by simp [Sys2Proof.opcodeTable, Sys2Proof.opcodeRowsLow, Sys2Proof.opcodeRowsMiddle, Sys2Proof.opcodeRowsHigh], rfl,
    Sys2Proof.fits_xff (op := 0xF) (by decide) x 0x1E _⟩

theorem Sys2Proof.Laws.RowFits.font (x : Sys2Proof.Reg) : Sys2Proof.Laws.RowFits.Statement (.font x) := fun _ =>
  ⟨⟨"FONT", 0xF0FF, 0xF029⟩, by simp [Sys2Proof.opcodeTable, Sys2Proof.opcodeRowsLow, Sys2Proof.opcodeRowsMiddle, Sys2Proof.opcodeRowsHigh], rfl,
    Sys2Proof.fits_xff (op := 0xF) (by decide) x 0x29 _⟩

theorem Sys2Proof.Laws.RowFits.bcd (x : Sys2Proof.Reg) : Sys2Proof.Laws.RowFits.Statement (.bcd x) := fun _ =>
  ⟨⟨"BCD", 0xF0FF, 0xF033⟩, by simp [Sys2Proof.opcodeTable, Sys2Proof.opcodeRowsLow, Sys2Proof.opcodeRowsMiddle, Sys2Proof.opcodeRowsHigh], rfl,
    Sys2Proof.fits_xff (op := 0xF) (by decide) x 0x33 _⟩

theorem Sys2Proof.Laws.RowFits.store (x : Sys2Proof.Reg) : Sys2Proof.Laws.RowFits.Statement (.store x) := fun _ =>
  ⟨⟨"STORE", 0xF0FF, 0xF055⟩, by simp [Sys2Proof.opcodeTable, Sys2Proof.opcodeRowsLow, Sys2Proof.opcodeRowsMiddle, Sys2Proof.opcodeRowsHigh], rfl,
    Sys2Proof.fits_xff (op := 0xF) (by decide) x 0x55 _⟩

theorem Sys2Proof.Laws.RowFits.load (x : Sys2Proof.Reg) : Sys2Proof.Laws.RowFits.Statement (.load x) := fun _ =>
  ⟨⟨"LOAD", 0xF0FF, 0xF065⟩, by simp [Sys2Proof.opcodeTable, Sys2Proof.opcodeRowsLow, Sys2Proof.opcodeRowsMiddle, Sys2Proof.opcodeRowsHigh], rfl,
    Sys2Proof.fits_xff (op := 0xF) (by decide) x 0x65 _⟩

theorem Sys2Proof.Laws.RowFits.savef (x : Sys2Proof.Reg) : Sys2Proof.Laws.RowFits.Statement (.savef x) := fun _ =>
  ⟨⟨"SAVEF", 0xF0FF, 0xF075⟩, by simp [Sys2Proof.opcodeTable, Sys2Proof.opcodeRowsLow, Sys2Proof.opcodeRowsMiddle, Sys2Proof.opcodeRowsHigh], rfl,
    Sys2Proof.fits_xff (op := 0xF) (by decide) x 0x75 _⟩

theorem Sys2Proof.Laws.RowFits.loadf (x : Sys2Proof.Reg) : Sys2Proof.Laws.RowFits.Statement (.loadf x) := fun _ =>
  ⟨⟨"LOADF", 0xF0FF, 0xF085⟩, by simp [Sys2Proof.opcodeTable, Sys2Proof.opcodeRowsLow, Sys2Proof.opcodeRowsMiddle, Sys2Proof.opcodeRowsHigh], rfl,
    Sys2Proof.fits_xff (op := 0xF) (by decide) x 0x85 _⟩
end

