-- ==== Sys2Proof/Tests/Slice0.lean ====
section
/-!
SUPPORT. Tests: the checks of WellFormed, the decoding of words written out from 30_encoding.md, single steps with the
results that 95_test_vectors.md tabulates, and for every obligation with hypotheses a concrete case that meets them.
-/

namespace Sys2Proof.Tests

open Sys2Proof.Machine

-- One theorem after the other: checked side by side, this many kernel evaluations want more threads than there is room.
set_option Elab.async false

/-! ### WellFormed refuses what is ill-formed (R7, R72, R73) -/

theorem test_wellFormed_refuses_sixteen_rows : (Instr.drw 0 0 16).wellFormed = false := by decide

theorem test_wellFormed_admits_fifteen_rows : (Instr.drw 15 15 15).wellFormed = true := by decide

theorem test_wellFormed_refuses_font_in_program_area :
    ({ defaultCfg with fontBase := 0x1B1 } : Cfg).wellFormed = false := by decide

theorem test_wellFormed_admits_font_just_below : ({ defaultCfg with fontBase := 0x1B0 } : Cfg).wellFormed = true := by
  decide

/-- A seed of the default seed type, 64-bit unsigned. -/
def zeroSeed : Seed := { bits := 64, value := 0 }

theorem test_wellFormed_refuses_seed_of_another_width :
    Seed.wellFormed defaultCfg { bits := 32, value := 0 } = false ∧ Seed.wellFormed defaultCfg zeroSeed = true := by
  decide

/-! ### Decoding: one word per constructor, its nibbles written out from R76 -/

theorem test_decode_family_0_to_7 :
    [0x00E0, 0x00EE, 0x1234, 0x2ABC, 0x37FE, 0x4801, 0x5120, 0x6F0A, 0x71FF].map decode =
      [some .cls, some .ret, some (.jp 0x234), some (.call 0xABC), some (.seqi 7 0xFE), some (.snei 8 0x01),
        some (.seq 1 2), some (.ldi 15 0x0A), some (.addi 1 0xFF)] := by decide +kernel

theorem test_decode_family_8 :
    [0x8AB0, 0x8AB1, 0x8AB2, 0x8AB3, 0x8AB4, 0x8AB5, 0x8AB6, 0x8AB7, 0x8ABE].map decode =
      [some (.mov 10 11), some (.or 10 11), some (.and 10 11), some (.xor 10 11), some (.add 10 11),
        some (.sub 10 11), some (.shr 10 11), some (.subn 10 11), some (.shl 10 11)] := by decide +kernel

theorem test_decode_family_9_to_E :
    [0x9120, 0xA2F0, 0xBFFF, 0xC10F, 0xD12F, 0xE39E, 0xE4A1].map decode =
      [some (.sne 1 2), some (.seti 0x2F0), some (.jpv0 0xFFF), some (.rnd 1 0x0F), some (.drw 1 2 15),
        some (.skp 3), some (.sknp 4)] := by decide +kernel

theorem test_decode_family_F :
    [0xF107, 0xF20A, 0xF315, 0xF418, 0xF51E, 0xF629, 0xF733, 0xF855, 0xF965, 0xFA75, 0xFB85].map decode =
      [some (.getdt 1), some (.waitk 2), some (.setdt 3), some (.setst 4), some (.addix 5), some (.font 6),
        some (.bcd 7), some (.store 8), some (.load 9), some (.savef 10), some (.loadf 11)] := by decide +kernel

/-- 95_test_vectors.md section 2.7. -/
theorem test_decode_rejects_illegal_words :
    ([0x0000, 0x00E1, 0x0123, 0x00FD, 0x00FF, 0x5001, 0x8008, 0x800D, 0x800F, 0x9001, 0xE000, 0xE19F, 0xE1A2, 0xF000,
      0xF130, 0xF1FF].all fun w => (decode w).isNone) = true := by decide +kernel

/-- 95_test_vectors.md section 2.7: the nearest legal neighbours. -/
theorem test_decode_admits_neighbours :
    ([0x00E0, 0x00EE, 0x5000, 0x8007, 0x800E, 0x9000, 0xE19E, 0xE1A1, 0xF107, 0xF133].all
      fun w => (decode w).isSome) = true := by decide +kernel

/-- R53: the byte at the lower address is the high byte. -/
theorem test_decodeBytes_is_big_endian :
    decodeBytes [0x60, 0x0A, 0xFF] = .ok (.ldi 0 0x0A, [0xFF]) ∧ decodeBytes [0x00, 0x00] = .error (.illegalOpcode 0) ∧
      decodeBytes [0x60] = .error .truncated := by decide +kernel

/-- R83, examples of the encodings in programs P1 and P4. -/
theorem test_encode_examples :
    encode (.ldi 0 0x0A) = 0x600A ∧ encode (.add 0 1) = 0x8014 ∧ encode (.drw 1 2 5) = 0xD125 ∧
      encodeBytes (.savef 8) = [0xF8, 0x75] := by decide +kernel

theorem test_decodeTableWord : decodeTableWord 16 0xD125 = some (.drw 1 2 5) ∧ decodeTableWord 16 0x5121 = none := by
  decide +kernel

/-! ### Single steps (95_test_vectors.md section 2) -/

/-- What a test looks at: a step of the word `w` at `pc` answers a next state that passes `p`. -/
def stepGives (w : Nat) (s : State) (p : State → Bool) : Bool :=
  match step (s.withFetchWord 16 w) with
  | .next t => p t
  | _ => false

/-- A step of the word `w` at `pc` fails with `e`. -/
def stepFails (w : Nat) (s : State) (e : Fault) : Bool :=
  match step (s.withFetchWord 16 w) with
  | .fault f => f == e
  | _ => false

/-- The start state with some registers set. -/
def withRegs (l : List (Reg × Byte)) : State := l.foldl (fun s p => s.setReg p.1 p.2) State.reset

/-- A state with some registers holding what is listed. -/
def hasRegs (t : State) (l : List (Reg × Byte)) : Bool := l.all fun p => t.reg p.1 == p.2

/-- Bytes of memory from an address on. -/
def bytesAt (t : State) (a : Addr) (n : Nat) : List Byte := (List.range n).map fun i => t.readByte (a + BitVec.ofNat 12 i)

/-- The start state with bytes of memory from `a` on. -/
def withBytes (s : State) (a : Addr) : List Byte → State
  | [] => s
  | b :: rest => withBytes (s.writeByte a b) (a + 1) rest

theorem test_ret : stepGives 0x00EE (((State.reset.setPc 0x300).setSp 1).setStackEntry 0 0x204)
    (fun t => t.pc == 0x204 && t.sp.val == 0) = true := by decide +kernel

theorem test_ret_badReturn : stepFails 0x00EE (State.reset.setPc 0x300) .badReturn = true := by decide +kernel

theorem test_jp : stepGives 0x1FFF State.reset (fun t => t.pc == 0xFFF) = true := by decide +kernel

theorem test_call_wraps : stepGives 0x2300 (State.reset.setPc 0xFFE)
    (fun t => t.pc == 0x300 && t.sp.val == 1 && t.stackEntry 0 == 0x000) = true := by decide +kernel

theorem test_call_stackOverflow : stepFails 0x2300 (State.reset.setSp 16) .stackOverflow = true := by decide +kernel

theorem test_seqi_wraps : stepGives 0x332A ((withRegs [(3, 0x2A)]).setPc 0xFFE) (fun t => t.pc == 0x002) = true := by
  decide +kernel

theorem test_snei : stepGives 0x432A (withRegs [(3, 0x2A)]) (fun t => t.pc == 0x202) = true := by decide +kernel

theorem test_seq : stepGives 0x5120 (withRegs [(1, 0x07), (2, 0x08)]) (fun t => t.pc == 0x202) = true := by
  decide +kernel

theorem test_sne : stepGives 0x9120 (withRegs [(1, 0x07), (2, 0x08)]) (fun t => t.pc == 0x204) = true := by
  decide +kernel

theorem test_jpv0_wraps : stepGives 0xBFFF (withRegs [(0, 0xFF)]) (fun t => t.pc == 0x0FE) = true := by decide +kernel

theorem test_ldi : stepGives 0x6FFF State.reset (fun t => hasRegs t [(15, 0xFF)] && t.pc == 0x202) = true := by
  decide +kernel

theorem test_addi_discards_carry : stepGives 0x7101 (withRegs [(1, 0xFF), (15, 0x00)])
    (fun t => hasRegs t [(1, 0x00), (15, 0x00)]) = true := by decide +kernel

theorem test_mov : stepGives 0x8120 (withRegs [(2, 0x33)]) (fun t => hasRegs t [(1, 0x33), (2, 0x33)]) = true := by
  decide +kernel

theorem test_or_leaves_vf : stepGives 0x8121 (withRegs [(1, 0xF0), (2, 0x0F), (15, 0x01)])
    (fun t => hasRegs t [(1, 0xFF), (15, 0x01)]) = true := by decide +kernel

theorem test_and_leaves_vf : stepGives 0x8122 (withRegs [(1, 0xF3), (2, 0x3F), (15, 0x01)])
    (fun t => hasRegs t [(1, 0x33), (15, 0x01)]) = true := by decide +kernel

theorem test_xor_leaves_vf : stepGives 0x8123 (withRegs [(1, 0xFF), (2, 0x0F), (15, 0x01)])
    (fun t => hasRegs t [(1, 0xF0), (15, 0x01)]) = true := by decide +kernel

theorem test_add_into_vf_keeps_the_carry : stepGives 0x8F14 (withRegs [(15, 0xF0), (1, 0x20)])
    (fun t => hasRegs t [(15, 0x01), (1, 0x20)]) = true := by decide +kernel

theorem test_add_reads_vf_first : stepGives 0x81F4 (withRegs [(1, 0xFF), (15, 0x01)])
    (fun t => hasRegs t [(1, 0x00), (15, 0x01)]) = true := by decide +kernel

theorem test_sub_borrow : stepGives 0x8125 (withRegs [(1, 0x05), (2, 0x0A)])
    (fun t => hasRegs t [(1, 0xFB), (15, 0x00)]) = true := by decide +kernel

theorem test_sub_equal : stepGives 0x8125 (withRegs [(1, 0x07), (2, 0x07)])
    (fun t => hasRegs t [(1, 0x00), (15, 0x01)]) = true := by decide +kernel

theorem test_shr_vx : stepGives 0x8126 (withRegs [(1, 0x05), (2, 0xF0)])
    (fun t => hasRegs t [(1, 0x02), (15, 0x01)]) = true := by decide +kernel

/-- The reset state with SHIFT_SRC = VY. -/
def withShiftSrcVy (s : State) : State := { s with cfg := { s.cfg with shiftSrc := .vy } }

theorem test_shr_vy : stepGives 0x8126 (withShiftSrcVy (withRegs [(1, 0x05), (2, 0xF0)]))
    (fun t => hasRegs t [(1, 0x78), (15, 0x00)]) = true := by decide +kernel

theorem test_subn_no_borrow : stepGives 0x8127 (withRegs [(1, 0x05), (2, 0x0A)])
    (fun t => hasRegs t [(1, 0x05), (15, 0x01)]) = true := by decide +kernel

theorem test_shl_vx : stepGives 0x812E (withRegs [(1, 0x81), (2, 0x0F)])
    (fun t => hasRegs t [(1, 0x02), (15, 0x01)]) = true := by decide +kernel

theorem test_shl_vy : stepGives 0x812E (withShiftSrcVy (withRegs [(1, 0x81), (2, 0x0F)]))
    (fun t => hasRegs t [(1, 0x1E), (15, 0x00)]) = true := by decide +kernel

/-- The byte of the generator is free; when it is 0xB7, the vector of the table holds. -/
theorem test_rnd_masks (h : (Config.rngStep (withRegs [(1, 0xAA)]).rng).2 = 0xB7) :
    ∃ t, exec (.rnd 1 0x0F) (withRegs [(1, 0xAA)]) = .next t ∧ t.reg 1 = 0x07 := by
  refine ⟨_, rfl, ?_⟩
  rw [State.reg_advance, State.reg_setReg_self, h]
  decide

theorem test_seti : stepGives 0xA2F0 State.reset (fun t => t.I == 0x2F0 && t.pc == 0x202) = true := by decide +kernel

theorem test_addix_wraps : stepGives 0xF21E ((withRegs [(2, 0xFF)]).setIndex 0xFFE)
    (fun t => t.I == 0x0FD && hasRegs t [(15, 0x00)]) = true := by decide +kernel

theorem test_font_low_nibble : stepGives 0xF029 (withRegs [(0, 0xFF)]) (fun t => t.I == 0x09B) = true := by
  decide +kernel

theorem test_bcd_wraps : stepGives 0xF333 ((withRegs [(3, 0x7B)]).setIndex 0xFFE)
    (fun t => bytesAt t 0xFFE 3 == [0x01, 0x02, 0x03]) = true := by decide +kernel

theorem test_store_stops_at_x : stepGives 0xF255
    ((withRegs [(0, 0x01), (1, 0x02), (2, 0x03), (3, 0x04)]).setIndex 0x400)
    (fun t => bytesAt t 0x400 4 == [0x01, 0x02, 0x03, 0x00] && t.I == 0x400) = true := by decide +kernel

theorem test_store_wraps : stepGives 0xF155 ((withRegs [(0, 0xAA), (1, 0xBB)]).setIndex 0xFFF)
    (fun t => bytesAt t 0xFFF 2 == [0xAA, 0xBB]) = true := by decide +kernel

theorem test_load_stops_at_x : stepGives 0xF265
    (withBytes ((withRegs [(3, 0x55)]).setIndex 0x400) 0x400 [0x09, 0x08, 0x07, 0x06])
    (fun t => hasRegs t [(0, 0x09), (1, 0x08), (2, 0x07), (3, 0x55)] && t.I == 0x400) = true := by decide +kernel

theorem test_load_wraps : stepGives 0xF165 (withBytes (State.reset.setIndex 0xFFF) 0xFFF [0x12, 0x34])
    (fun t => hasRegs t [(0, 0x12), (1, 0x34)]) = true := by decide +kernel

/-- The bytes of the display buffer that are not 0, each with its index. -/
def litBytes (t : State) : List (Byte × Nat) := t.fb.toList.zipIdx.filter fun p => p.1 != 0

theorem test_cls : stepGives 0x00E0 (State.reset.setDisplay (invertPixel (invertPixel clearDisplay 0 0) 63 31))
    (fun t => litBytes t == [] && t.dispDirty) = true := by decide +kernel

/-- The glyph `0` of the font over a lit pixel: 95_test_vectors.md section 2.4. -/
theorem test_drw_collision : stepGives 0xD015 ((State.reset.setIndex 0x050).setDisplay (invertPixel clearDisplay 0 0))
    (fun t => litBytes t == [(0x0E, 0), (0x09, 8), (0x09, 16), (0x09, 24), (0x0F, 32)] &&
      hasRegs t [(15, 0x01)] && t.dispDirty) = true := by decide +kernel

theorem test_drw_wraps : stepGives 0xD012
    (withBytes ((withRegs [(1, 0x1F)]).setIndex 0xFFF) 0xFFF [0x80, 0x40])
    (fun t => litBytes t == [(0x02, 0), (0x01, 248)] && hasRegs t [(15, 0x00)]) = true := by decide +kernel

theorem test_skp_low_nibble : stepGives 0xE09E ((withRegs [(0, 0x13)]).setKeyLatch 0x0008)
    (fun t => t.pc == 0x204) = true := by decide +kernel

theorem test_sknp : stepGives 0xE0A1 ((withRegs [(0, 0x03)]).setKeyLatch 0x0008) (fun t => t.pc == 0x202) = true := by
  decide +kernel

theorem test_getdt : stepGives 0xF207 (State.reset.setDelay 0x3C) (fun t => hasRegs t [(2, 0x3C)] && t.DT == 0x3C)
    = true := by decide +kernel

theorem test_waitk_ignores_held_keys : stepGives 0xF10A (State.reset.setKeyLatch 0xFFFF)
    (fun t => t.wait == some 1 && t.pc == 0x202 && hasRegs t [(1, 0x00)]) = true := by decide +kernel

theorem test_setdt : stepGives 0xF215 (withRegs [(2, 0x3C)]) (fun t => t.DT == 0x3C) = true := by decide +kernel

theorem test_setst : stepGives 0xF218 (withRegs [(2, 0x05)]) (fun t => t.ST == 0x05 && soundOn t) = true := by
  decide +kernel

/-- A block whose flag store holds 11 22 33 44 55 66 77 88, as `init` leaves it (P6). -/
def withFlags : State := (init [] zeroSeed 0x8877665544332211 State.reset).state

theorem test_savef : stepGives 0xF175 (withRegs [(0, 0xAA), (1, 0xBB)])
    (fun t => t.flag.toList == [0xAA, 0xBB, 0, 0, 0, 0, 0, 0] && t.flagsDirty) = true := by decide +kernel

theorem test_savef_flagOverflow : stepFails 0xF875 (withRegs [(0, 0xAA)]) .flagOverflow = true := by decide +kernel

theorem test_loadf : stepGives 0xF285 (withFlags.setReg 3 0x99)
    (fun t => hasRegs t [(0, 0x11), (1, 0x22), (2, 0x33), (3, 0x99)] && !t.flagsDirty) = true := by decide +kernel

theorem test_loadf_flagOverflow : stepFails 0xF885 withFlags .flagOverflow = true := by decide +kernel

/-- 95_test_vectors.md P10: the empty program. -/
theorem test_reset_runs_into_zero : (match step State.reset with | .fault e => e == .illegalOpcode | _ => false) = true ∧
    instrQ State.reset = 0x0000 ∧ pcQ State.reset = 0x0200 := by decide +kernel

/-! ### Host operations (95_test_vectors.md section 2.8) -/

theorem test_init_places_the_program : instrQ (init [0x60, 0x0A] zeroSeed 0 State.reset).state = 0x600A := by decide +kernel

theorem test_init_unpacks_flags : withFlags.flag.toList = [0x11, 0x22, 0x33, 0x44, 0x55, 0x66, 0x77, 0x88] := by
  decide +kernel

theorem test_init_places_the_font :
    bytesAt (init [0x60] zeroSeed 0 State.reset).state 0x04F 6 = [0x00, 0xF0, 0x90, 0x90, 0x90, 0xF0] ∧
      bytesAt (init [0x60] zeroSeed 0 State.reset).state 0x09B 6 = [0xF0, 0x80, 0xF0, 0x80, 0x80, 0x00] := by decide +kernel

theorem test_tick : (tick ((State.reset.setDelay 0x02).setSound 0x00)).DT = 0x01 ∧
    (tick ((State.reset.setDelay 0x02).setSound 0x00)).ST = 0x00 := by decide +kernel

theorem test_setKeys_lowest : hasRegs (setKeys 0x8100 (State.reset.setWait (some 15))) [(15, 0x08)] = true ∧
    (setKeys 0x8100 (State.reset.setWait (some 15))).wait = none := by decide +kernel

theorem test_setKeys_held_key_does_not_count :
    (setKeys 0x0008 ((State.reset.setWait (some 0)).setKeyLatch 0x0008)).wait = some 0 ∧
      (setKeys 0x0009 ((State.reset.setWait (some 0)).setKeyLatch 0x0008)).wait = none := by decide +kernel

theorem test_flagsQ_be : flagsQ withFlags = 0x1122334455667788 := by decide +kernel

theorem test_flagsQ_le : flagsQ { withFlags with cfg := { defaultCfg with flagsReadOrder := .le } } = 0x8877665544332211 := by
  decide +kernel

/-! ### Witnesses: a concrete case that meets the hypotheses of each obligation -/

theorem reset_memory_wf : Memory.wf State.reset.cfg State.reset.mem := by decide +kernel

/-- A state at work: two registers hold 0x62 and 0x77, `I` stands behind the instruction at `pc`. -/
def atWork : State := ((State.reset.setReg 0 0x62).setReg 1 0x77).setIndex 0x202

theorem atWork_inv : atWork.Inv := ⟨reset_memory_wf, by decide +kernel⟩

/-- A block that waits for a key, for register 1, with key 3 held. -/
def waiting : State := (atWork.setWait (some 1)).setKeyLatch 0x0008

/-- A block with an instruction at `pc`, and memory that is not at its reset contents. -/
def withWord (w : Nat) : State := atWork.withFetchWord 16 w

theorem witness_InitSetsEveryPieceOfState :
    [0x60#8, 0x0A#8].length ≤ 3584 ∧ (List.replicate 3584 0x60#8).length ≤ 3584 ∧ atWork.cfg.wellFormed = true :=
  ⟨by decide, by rw [List.length_replicate], atWork_inv.config⟩

theorem witness_ProgramTooLongAbove3584Bytes :
    3584 < (List.replicate 3585 0x60#8).length ∧ (List.replicate 3584 0x60#8).length ≤ 3584 ∧
      atWork.cfg.wellFormed = true :=
  ⟨by rw [List.length_replicate]; decide, by rw [List.length_replicate], atWork_inv.config⟩

theorem witness_InitForgetsEarlierState : atWork.cfg = waiting.cfg ∧ atWork ≠ waiting ∧ [0x60#8].length ≤ 3584 :=
  ⟨rfl, fun h => absurd (congrArg State.wait h) (by decide +kernel), by decide⟩

theorem witness_PoisonedBlockRefusesAllButInit :
    3584 < (List.replicate 3585 0x60#8).length ∧ (powerOn defaultCfg).poisoned = true ∧ Op.tick.isInit = false ∧
      [0x60#8].length ≤ 3584 :=
  ⟨by rw [List.length_replicate]; decide, rfl, rfl, by decide⟩

theorem witness_DecodeOfEncodeIsTheInstruction :
    (Instr.drw 1 2 15).wellFormed = true ∧ (Instr.store 15).wellFormed = true := by decide

theorem witness_EncodeOfDecodeIsTheWord : decode 0xD12F = some (.drw 1 2 15) ∧ decode 0x8AB6 = some (.shr 10 11) := by
  decide +kernel

theorem witness_DecodeAgreesWithTheOpcodeTable :
    ⟨"DRW", 0xF000, 0xD000⟩ ∈ opcodeTable ∧ (⟨"DRW", 0xF000, 0xD000⟩ : OpcodeRow).holds 0xD12F = true ∧
      (⟨"DRW", 0xF000, 0xD000⟩ : OpcodeRow).holds 0x8AB6 = false := by decide +kernel

/-- One word for each family of the statement. -/
theorem witness_IllegalWordsFamilyByFamily :
    ([0x0000, 0x5001, 0x8008, 0x9001, 0xE19F, 0xF1FF].all fun w => (decode w).isNone) = true := by decide +kernel

theorem witness_StepRunsTheDecodedInstruction : (withWord 0x8014).poisoned = false ∧ (withWord 0x8014).wait = none ∧
    decode ((withWord 0x8014).readByte (withWord 0x8014).pc ++ (withWord 0x8014).readByte ((withWord 0x8014).pc + 1)) =
      some (.add 0 1) := by decide +kernel

theorem witness_IllegalWordFailsAndFailsAgain : atWork.poisoned = false ∧ atWork.wait = none ∧
    decode (atWork.readByte atWork.pc ++ atWork.readByte (atWork.pc + 1)) = none ∧
    ([Op.step, .tick, .setKeys 0x00FF].all fun op => !op.isInit) = true := by decide +kernel

theorem witness_GatedStepDoesNothing : waiting.poisoned = false ∧ waiting.wait = some 1 := by decide +kernel

/-- A step that succeeds, a gated one, one that fails, and a schedule without `init`. -/
theorem witness_FailedStepRepeatsUntilInit :
    stepGives 0x8014 atWork (fun _ => true) = true ∧ (waiting.poisoned = false ∧ waiting.wait = some 1) ∧
      step atWork = .fault .illegalOpcode ∧
      ([Op.tick, .setKeys 0xFFFF, .step, .clearDisplayDirty, .clearFlagsDirty].all fun op => !op.isInit) = true :=
  ⟨by decide +kernel, by decide +kernel, rfl, rfl⟩

/-- A schedule in which a held key stays down, is released, and nothing else is pressed. -/
theorem witness_KeyWaitEndsOnlyByPress : waiting.poisoned = false ∧ waiting.wait = some 1 ∧
    NoPress waiting.keys [.step, .setKeys 0x0008, .tick, .setKeys 0x0000, .clearDisplayDirty] :=
  ⟨by decide +kernel, by decide +kernel, rfl, by decide +kernel, rfl, by decide +kernel, rfl, trivial⟩

theorem witness_StepKeepsTheInvariant : waiting.Inv ∧ step waiting = .next waiting :=
  ⟨⟨reset_memory_wf, atWork_inv.config⟩, rfl⟩

theorem witness_OperationsKeepTheInvariant : atWork.Inv ∧ ∃ t, runOps [.step, .tick, .setKeys 1] atWork = .ok t :=
  ⟨atWork_inv, _, rfl⟩

/-- One case for each premise. -/
theorem witness_OnlyTheseOperationsFail :
    exec .ret State.reset = .fault .badReturn ∧ exec (.call 0x300) (State.reset.setSp 16) = .fault .stackOverflow ∧
      exec (.savef 8) State.reset = .fault .flagOverflow ∧ Instr.cls ≠ .ret ∧ step State.reset = .fault .illegalOpcode ∧
      State.reset.poisoned = false ∧ Op.tick ≠ .step ∧ Op.tick.isInit = false :=
  ⟨rfl, rfl, rfl, nofun, rfl, rfl, nofun, rfl⟩

theorem witness_init_fails : (init (List.replicate 3585 0x60) zeroSeed 0 State.reset).status = .fail .programTooLong := by
  rw [init_tooLong (by rw [List.length_replicate]; decide)]

/-- A state that answers every instruction but `CXNN` with a next state: one stack entry in use. -/
def readyForAll : State := ((atWork.setSp 1).setStackEntry 0 0x204).setKeyLatch 0x0004

/-- An instruction answers a next state that passes `p`. -/
def execGives (i : Instr) (s : State) (p : State → Bool) : Bool :=
  match exec i s with
  | .next t => p t
  | _ => false

/-- Every case of the statement's list of program counters is met by an instruction that completes; each skip both
ways (`V[0] = 0x62`, `V[1] = 0x77`, `V[2] = 0`, and key 2 is down). -/
theorem witness_ProgramCounterAfterEveryInstruction :
    ([.jp 0x300, .call 0x300, .jpv0 0xFFF, .ret, .seqi 0 0x62, .seqi 0 0x63, .snei 0 0x62, .snei 0 0x63, .seq 0 0,
      .seq 0 1, .sne 0 1, .sne 0 0, .skp 0, .skp 1, .sknp 0, .sknp 1, .waitk 3].all
      fun i => execGives i readyForAll fun _ => true) = true := by decide +kernel

theorem witness_OnlyNamedInstructionsChangeEachPiece :
    ([.cls, .ret, .call 0x300, .ldi 0 1, .drw 0 1 5, .bcd 0, .store 15, .seti 0, .addix 0, .font 0, .setdt 0, .setst 0,
      .savef 7, .waitk 0].all fun i => execGives i readyForAll fun _ => true) = true := by decide +kernel

/-- Each group of the statement has an instruction that changes the register it names. -/
theorem witness_OnlyNamedRegistersChange :
    execGives (.ldi 0 1) readyForAll (fun t => t.reg 0 != readyForAll.reg 0) = true ∧
      execGives (.or 0 1) readyForAll (fun t => t.reg 0 != readyForAll.reg 0) = true ∧
      execGives (.sub 1 0) readyForAll (fun t => t.reg 1 != readyForAll.reg 1 && t.reg vf != readyForAll.reg vf)
        = true ∧
      execGives (.drw 2 2 1) ((State.reset.setIndex 0x050).setDisplay (Vector.replicate 256 0xFF))
        (fun t => t.reg vf != 0) = true ∧
      execGives (.getdt 1) readyForAll (fun t => t.reg 1 != readyForAll.reg 1) = true ∧
      execGives (.load 1) readyForAll (fun t => t.reg 0 != readyForAll.reg 0) = true := by decide +kernel

/-- `00E0`, `DXYN` and `FX75` change the display and the flag store; `6XNN` neither. -/
theorem witness_DirtyBitsAfterEveryInstruction :
    execGives .cls (State.reset.setDisplay (Vector.replicate 256 0xFF)) (fun t => !pixel t.fb 0 0) = true ∧
      execGives (.drw 2 2 1) (State.reset.setIndex 0x050) (fun t => pixel t.fb 0 0) = true ∧
      execGives (.savef 0) atWork (fun t => t.flagByte 0 != atWork.flagByte 0) = true ∧
      execGives (.ldi 0 0) atWork (fun _ => true) = true := by decide +kernel

theorem witness_OnlyAcknowledgmentsClearDirtyBits : (atWork.setDispDirty true).poisoned = false ∧
    (∃ r, transact .tick ((atWork.setDispDirty true).setFlagsDirty true) = .ok r ∧ r.state.dispDirty = true ∧
      r.state.flagsDirty = true) ∧ Op.tick.isInit = false ∧ Op.tick ≠ .clearDisplayDirty ∧ Op.tick ≠ .clearFlagsDirty :=
  ⟨rfl, ⟨_, rfl, rfl, rfl⟩, rfl, by decide, by decide⟩

theorem witness_OnlyRndConsumesTheGenerator : (∀ x nn, Instr.cls ≠ .rnd x nn) ∧ ∃ t, exec .cls atWork = .next t :=
  ⟨nofun, _, rfl⟩

/-- Both clauses, the second at either end of the stack. -/
theorem witness_RetPopsOrFailsWithBadReturn : atWork.sp.val = 0 ∧ (atWork.setSp 1).sp.val = (0 : Fin 16).val + 1 ∧
    (atWork.setSp 16).sp.val = (15 : Fin 16).val + 1 := by decide +kernel

theorem witness_CallPushesOrFailsWithStackOverflow : (atWork.setSp 16).sp.val = 16 ∧
    atWork.sp.val = (0 : Fin 16).val ∧ (atWork.setSp 15).sp.val = (15 : Fin 16).val := by decide +kernel

theorem witness_ReturnComesBackBehindTheCall : (atWork.setSp 15).sp.val < 16 := by decide +kernel

theorem witness_SixteenCallsSucceedTheSeventeenthFails :
    atWork.sp.val = 0 ∧ (List.replicate 16 (0x200 : Addr)).length = 16 := by decide +kernel

theorem witness_ShiftsSetResultAndBitOut : atWork.cfg.shiftSrc = .vx ∧ (withShiftSrcVy atWork).cfg.shiftSrc = .vy := by
  decide +kernel

theorem witness_BcdStoresTheDecimalDigits : atWork.Inv ∧ (0x300 : Addr) ≠ indexed atWork 0 ∧
    (0x300 : Addr) ≠ indexed atWork 1 ∧ (0x300 : Addr) ≠ indexed atWork 2 := ⟨atWork_inv, by decide +kernel⟩

theorem witness_StoreWritesTheRegisterRun : atWork.Inv ∧ (15 : Reg).val ≤ (15 : Reg).val ∧
    ∀ i : Reg, i.val ≤ (15 : Reg).val → (0x212 : Addr) ≠ atWork.I + BitVec.ofNat 12 i.val :=
  ⟨atWork_inv, by decide, by decide +kernel⟩

theorem witness_LoadReadsTheRegisterRun : (0 : Reg).val ≤ (0 : Reg).val ∧ (0 : Reg).val < (1 : Reg).val := by decide

theorem witness_LoadBringsBackWhatStoreWrote : atWork.Inv ∧ (14 : Reg).val < (15 : Reg).val := ⟨atWork_inv, by decide⟩

theorem witness_StoredCodeIsWhatTheNextStepRuns : atWork.Inv ∧ atWork.poisoned = false ∧ atWork.wait = none ∧
    atWork.I = atWork.pc + 2 ∧ 1 ≤ (1 : Reg).val ∧ decode (atWork.reg 0 ++ atWork.reg 1) = some (.ldi 2 0x77) :=
  ⟨atWork_inv, by decide +kernel⟩

/-- The top left pixel of the glyph `0` is covered, and lit or dark. -/
theorem witness_DrwInvertsExactlyTheCoveredPixels : 5 ≤ 15 ∧
    SpriteCovers (State.reset.setIndex 0x050) 0 0 5 0 0 ∧ pixel (Vector.replicate 256 0xFF) 0 0 = true ∧
    pixel clearDisplay 0 0 = false :=
  ⟨by decide, ⟨0, 0, by decide +kernel⟩, by decide +kernel, by decide +kernel⟩

theorem witness_DrawingTwiceRestoresTheDisplay : 5 ≤ 15 ∧ (0 : Reg) ≠ vf ∧ (1 : Reg) ≠ vf ∧
    (∀ px py, SpriteCovers (State.reset.setIndex 0x050) 0 0 5 px py →
      pixel (State.reset.setIndex 0x050).fb px py = false) ∧
    ∃ px py, SpriteCovers (State.reset.setIndex 0x050) 0 0 5 px py :=
  ⟨by decide, by decide, by decide, fun px py _ => pixel_clearDisplay px py, 0, 0, 0, 0, by decide +kernel⟩

theorem witness_TickTakesBothTimersDown : atWork.poisoned = false := by decide +kernel

/-- Both clauses, the second with the lowest and with the highest key. -/
theorem witness_SetKeysCapturesTheLowestPress : waiting.poisoned = false ∧ atWork.wait = none ∧
    0x0008#16 &&& ~~~waiting.keys = 0 ∧ waiting.wait = some 1 ∧
    (0x0009#16).getLsbD (0 : Reg).val = true ∧ waiting.keys.getLsbD (0 : Reg).val = false ∧
    (0x8008#16).getLsbD (15 : Reg).val = true ∧ waiting.keys.getLsbD (15 : Reg).val = false ∧
    ∀ j : Reg, j.val < (15 : Reg).val → (0x8008#16).getLsbD j.val = true → waiting.keys.getLsbD j.val = true := by
  decide +kernel

/-- Each clause at the boundary. -/
theorem witness_FlagOverflowExactlyAboveSeven : 7 < (8 : Reg).val ∧ (7 : Reg).val ≤ 7 ∧
    (withWord 0xF875).poisoned = false ∧ (withWord 0xF875).wait = none ∧
    decode (fetch16 (withWord 0xF875) (withWord 0xF875).pc) = some (.savef 8) ∧
    decode (fetch16 (withWord 0xFF85) (withWord 0xFF85).pc) = some (.loadf 15) := by decide +kernel

theorem witness_SavefFillsTheFlagStore : 7 < (8 : Reg).val ∧ (7 : Reg).val ≤ 7 ∧ (7 : Reg).val = (7 : Fin 8).val ∧
    (6 : Reg).val < (7 : Fin 8).val := by decide

theorem witness_LoadfReadsTheFlagStore : 7 < (8 : Reg).val ∧ (7 : Reg).val ≤ 7 ∧ (7 : Reg).val = (7 : Fin 8).val ∧
    (7 : Reg).val < (8 : Reg).val := by decide

theorem witness_OutputsShowTheState : atWork.poisoned = false ∧ (∃ t, exec (.waitk 0) atWork = .next t) ∧
    waiting.wait ≠ none ∧ 0x0001#16 &&& ~~~waiting.keys ≠ 0 :=
  ⟨by decide +kernel, ⟨_, rfl⟩, by decide +kernel, by decide +kernel⟩

/-- The reset state with FLAGS_READ_ORDER = LE. -/
def withLittleEndianFlags : State := { State.reset with cfg := { defaultCfg with flagsReadOrder := .le } }

theorem witness_OutputsTheSpecDecides : atWork.cfg.flagsReadOrder = .be ∧
    withLittleEndianFlags.cfg.flagsReadOrder = .le ∧ [0x60#8].length ≤ 3584 ∧ atWork.poisoned = false := by
  decide +kernel

end Sys2Proof.Tests
end

section
/-!
PROOFS. A failed step and the schedules that follow it: what the host operations other than `init` leave unchanged, and
the illegal word (40_step_dispatch.md R93, R96).
-/

namespace Sys2Proof.Machine

variable {s t : State} {e : Fault}

/-! ### Frames of the host operations -/

/-- What the host operations other than `init` and `step` can change while no key is waited for. -/
def hostParts : List Part := [.delay, .sound, .keys, .dispDirty, .flagsDirty]

theorem tick_keepsAllBut (s : State) : KeepsAllBut [.delay, .sound] s (tick s) := by
  intro p hp
  cases p <;> simp_all [Part.same, tick]

theorem clearDisplayDirty_keepsAllBut (s : State) : KeepsAllBut [.dispDirty] s (clearDisplayDirty s) := by
  intro p hp
  cases p <;> simp_all [Part.same, clearDisplayDirty]

theorem clearFlagsDirty_keepsAllBut (s : State) : KeepsAllBut [.flagsDirty] s (clearFlagsDirty s) := by
  intro p hp
  cases p <;> simp_all [Part.same, clearFlagsDirty]

theorem setKeyLatch_keepsAllBut (s : State) (mask : KeyMask) : KeepsAllBut [.keys] s (s.setKeyLatch mask) := by
  intro p hp
  cases p <;> simp_all [Part.same]

theorem setKeys_of_not_waiting (hw : s.wait = none) (mask : KeyMask) : setKeys mask s = s.setKeyLatch mask := by
  obtain ⟨r, k, hr, -, -⟩ | ⟨-, hset⟩ := setKeys_cases mask s
  · rw [hw] at hr; cases hr
  · exact hset

/-! ### A failed step -/

/-- Only a step that is neither refused nor gated can fail (R90, R91). -/
theorem ready_of_step_fault (h : step s = .fault e) : s.poisoned = false ∧ s.wait = none := by
  rcases step_cases s with ⟨-, hs⟩ | ⟨-, -, hs⟩ | ⟨hp, hw, -, -⟩ | ⟨hp, hw, -⟩
  · rw [hs] at h; cases h
  · rw [hs] at h; cases h
  · exact ⟨hp, hw⟩
  · exact ⟨hp, hw⟩

/-- In a state whose step fails, every operation but `init` answers, and changes none but the host's own parts. -/
theorem transact_of_step_fault (h : step s = .fault e) {op : Op} (hop : op.isInit = false) :
    ∃ r, transact op s = .ok r ∧ KeepsAllBut hostParts s r.state := by
  obtain ⟨hp, hw⟩ := ready_of_step_fault h
  cases op with
  | init program seed initFlags => cases hop
  | step => exact ⟨_, stepResponse_fault h, .refl _ _⟩
  | tick => exact ⟨_, harmless_ready hp _, (tick_keepsAllBut s).mono (by decide)⟩
  | setKeys mask =>
    refine ⟨_, harmless_ready hp _, ?_⟩
    rw [setKeys_of_not_waiting hw]
    exact (setKeyLatch_keepsAllBut s mask).mono (by decide)
  | clearDisplayDirty => exact ⟨_, harmless_ready hp _, (clearDisplayDirty_keepsAllBut s).mono (by decide)⟩
  | clearFlagsDirty => exact ⟨_, harmless_ready hp _, (clearFlagsDirty_keepsAllBut s).mono (by decide)⟩

/-- Where the failure of a step does not depend on the host's own parts, a schedule without `init` runs to its end and
changes nothing else: the state it reaches fails the same way. -/
theorem runOps_of_stable_fault (hstable : ∀ u, KeepsAllBut hostParts s u → step u = .fault e) (ops : List Op)
    (hops : ∀ op ∈ ops, op.isInit = false) (hst : KeepsAllBut hostParts s t) :
    ∃ u, runOps ops t = .ok u ∧ KeepsAllBut hostParts s u := by
  induction ops generalizing t with
  | nil => exact ⟨t, rfl, hst⟩
  | cons op rest ih =>
    obtain ⟨hop, hrest⟩ := List.forall_mem_cons.1 hops
    obtain ⟨r, hr, hkeep⟩ := transact_of_step_fault (hstable t hst) hop
    obtain ⟨u, hrun, hsu⟩ := ih hrest (hst.trans hkeep)
    exact ⟨u, by rw [runOps, hr]; exact hrun, hsu⟩

/-! ### The illegal word -/

theorem step_illegal (hp : s.poisoned = false) (hw : s.wait = none) (hd : decode (fetch16 s s.pc) = none) :
    step s = .fault .illegalOpcode := (step_ready hp hw).trans (runWord_illegal hd s)

/-- The word at `pc` is the same while memory and `pc` are. -/
theorem fetch16_pc_eq_of_keepsAllBut {changed : List Part} (h : KeepsAllBut changed s t) (hmem : .mem ∉ changed)
    (hpc : .pc ∉ changed) : fetch16 t t.pc = fetch16 s s.pc := by
  have hread : ∀ a, t.readByte a = s.readByte a := h .mem hmem
  have hpcEq : t.pc = s.pc := h .pc hpc
  rw [fetch16, hread, hread, hpcEq, fetch16]

/-- An illegal word goes on failing whatever the host's own parts become (R93). -/
theorem step_illegal_of_keepsAllBut (hp : s.poisoned = false) (hw : s.wait = none)
    (hd : decode (fetch16 s s.pc) = none) (h : KeepsAllBut hostParts s t) : step t = .fault .illegalOpcode := by
  have hpoisoned : t.poisoned = s.poisoned := h .poisoned (by decide)
  have hwait : t.wait = s.wait := h .wait (by decide)
  have hword := fetch16_pc_eq_of_keepsAllBut h (by decide) (by decide)
  exact step_illegal (hpoisoned.trans hp) (hwait.trans hw) (by rw [hword, hd])

/-- Settles O12: an illegal word depends on `pc` and memory alone, which no operation but `init` changes after it. -/
theorem illegalWordFailsAndFailsAgain : Obligations.IllegalWordFailsAndFailsAgain := by
  unfold Obligations.IllegalWordFailsAndFailsAgain
  intro s hp hw hd
  have hstable : ∀ u, KeepsAllBut hostParts s u → step u = .fault .illegalOpcode :=
    fun u hu => step_illegal_of_keepsAllBut hp hw hd hu
  have hfail := hstable s (.refl _ s)
  refine ⟨hfail, stepResponse_fault hfail, fun ops hops => ?_⟩
  obtain ⟨t, hrun, hst⟩ := runOps_of_stable_fault hstable ops hops (.refl _ s)
  exact ⟨t, hrun, hst .pc (by decide), hst .mem (by decide), stepResponse_fault (hstable t hst)⟩

end Sys2Proof.Machine
end

section
/-!
PROOFS. Jumps and skips: each answers the state with another `pc`, and nothing but `pc` changes
(41_control_flow.md R101, R103 to R106).
-/

namespace Sys2Proof.Machine

variable (s : State)

/-! ### What setting `pc` and skipping leave unchanged -/

theorem setPc_keepsAllBut (a : Addr) : KeepsAllBut [.pc] s (s.setPc a) := by
  intro p hp
  cases p <;> simp_all [Part.same]

/-- A skip is one assignment to `pc`, taken or not (R95 b). -/
theorem skipIf_keepsAllBut (c : Bool) : KeepsAllBut [.pc] s (s.skipIf c) := setPc_keepsAllBut s _

/-! ### Where the comparing skips go -/

theorem skipIf_beq_pc (a b : Byte) : (s.skipIf (a == b)).pc = if a = b then s.pc + 4 else s.pc + 2 := by
  rw [State.skipIf_pc]
  simp only [beq_iff_eq]

theorem skipIf_bne_pc (a b : Byte) : (s.skipIf (a != b)).pc = if a = b then s.pc + 2 else s.pc + 4 := by
  rw [State.skipIf_pc]
  simp only [bne_iff_ne, ite_not]

/-! ### The arms of `exec` -/

theorem exec_jp (nnn : Addr) : exec (.jp nnn) s = .next (s.setPc nnn) := rfl

theorem exec_seqi (x : Reg) (nn : Byte) : exec (.seqi x nn) s = .next (s.skipIf (s.reg x == nn)) := rfl

theorem exec_snei (x : Reg) (nn : Byte) : exec (.snei x nn) s = .next (s.skipIf (s.reg x != nn)) := rfl

theorem exec_seq (x y : Reg) : exec (.seq x y) s = .next (s.skipIf (s.reg x == s.reg y)) := rfl

theorem exec_sne (x y : Reg) : exec (.sne x y) s = .next (s.skipIf (s.reg x != s.reg y)) := rfl

/-! ### The obligations -/

/-- Settles O30: a jump is the assignment of `nnn` to `pc`. -/
theorem jumpSetsThePc : Obligations.JumpSetsThePc := by
  unfold Obligations.JumpSetsThePc
  intro nnn s
  exact ⟨s.setPc nnn, exec_jp s nnn, s.setPc_pc nnn, setPc_keepsAllBut s nnn⟩

/-- Settles O32: `3XNN` skips on the equality of `V[x]` and `nn`, `4XNN` on their difference. -/
theorem skipsThatCompareWithAnImmediate : Obligations.SkipsThatCompareWithAnImmediate := by
  unfold Obligations.SkipsThatCompareWithAnImmediate
  intro x nn s
  constructor
  · exact ⟨_, exec_seqi s x nn, skipIf_beq_pc s _ _, skipIf_keepsAllBut s _⟩
  · exact ⟨_, exec_snei s x nn, skipIf_bne_pc s _ _, skipIf_keepsAllBut s _⟩

/-- Settles O33: `5XY0` skips on the equality of `V[x]` and `V[y]`, `9XY0` on their difference. -/
theorem skipsThatCompareRegisters : Obligations.SkipsThatCompareRegisters := by
  unfold Obligations.SkipsThatCompareRegisters
  intro x y s
  constructor
  · exact ⟨_, exec_seq s x y, skipIf_beq_pc s _ _, skipIf_keepsAllBut s _⟩
  · exact ⟨_, exec_sne s x y, skipIf_bne_pc s _ _, skipIf_keepsAllBut s _⟩

end Sys2Proof.Machine
end

section
/-!
PROOFS. Arithmetic and assignment: an instruction that writes one register and goes on to the next instruction
(42_alu.md R110 to R112).
-/

namespace Sys2Proof.Machine

variable (s : State)

/-! ### What writing a register and advancing change and leave unchanged -/

theorem setReg_keepsAllBut (x : Reg) (v : Byte) : KeepsAllBut [.regs] s (s.setReg x v) := by
  intro p hp
  cases p <;> simp_all [Part.same]

theorem advance_keepsAllBut : KeepsAllBut [.pc] s s.advance := setPc_keepsAllBut s (nextPc s)

theorem setReg_advance_writesReg (x : Reg) (v : Byte) : WritesReg x v s (s.setReg x v).advance :=
  ⟨s.reg_setReg_self x v, fun _ hr => s.reg_setReg_of_ne hr v⟩

theorem setReg_advance_keepsAllBut (x : Reg) (v : Byte) : KeepsAllBut [.regs, .pc] s (s.setReg x v).advance :=
  ((setReg_keepsAllBut s x v).mono (by decide)).trans ((advance_keepsAllBut (s.setReg x v)).mono (by decide))

/-- All that an instruction does which writes one register and no flag. -/
theorem setReg_advance_effect (x : Reg) (v : Byte) :
    WritesReg x v s (s.setReg x v).advance ∧ (s.setReg x v).advance.pc = s.pc + 2 ∧
      KeepsAllBut [.regs, .pc] s (s.setReg x v).advance :=
  ⟨setReg_advance_writesReg s x v, (s.setReg x v).advance_pc, setReg_advance_keepsAllBut s x v⟩

/-! ### The arms of `exec` -/

theorem exec_ldi (x : Reg) (nn : Byte) : exec (.ldi x nn) s = .next (s.setReg x nn).advance := rfl

theorem exec_addi (x : Reg) (nn : Byte) : exec (.addi x nn) s = .next (s.setReg x (s.reg x + nn)).advance := rfl

theorem exec_mov (x y : Reg) : exec (.mov x y) s = .next (s.setReg x (s.reg y)).advance := rfl

/-! ### The obligation -/

/-- Settles O34: each of the three is one write of register `x` and an advance; the byte `7XNN` writes is the sum of
two bytes, which is taken modulo 256. -/
theorem loadAddAndAssign : Obligations.LoadAddAndAssign := by
  unfold Obligations.LoadAddAndAssign
  intro x y nn s
  refine ⟨?load, ?add, ?assign⟩
  case load => exact ⟨_, exec_ldi s x nn, setReg_advance_effect s x nn⟩
  case add => exact ⟨_, _, exec_addi s x nn, BitVec.toNat_add (s.reg x) nn, setReg_advance_effect s x (s.reg x + nn)⟩
  case assign => exact ⟨_, exec_mov s x y, setReg_advance_effect s x (s.reg y)⟩

end Sys2Proof.Machine
end

section
/-!
PROOFS. The register runs of `FX55` and `FX65`: each is a run of byte transfers between memory from `I` on and the
registers from `V[0]` on, then an advance (43_index_memory.md R129, R130).
-/

namespace Sys2Proof.Machine

variable {s : State}

/-! ### What a register run leaves unchanged -/

theorem storeRegs_keepsAllBut (n : Nat) (s : State) : KeepsAllBut [.mem] s (storeRegs n s) := by
  intro p hp
  cases p <;> simp_all [Part.same]

theorem loadRegs_keepsAllBut (n : Nat) (s : State) : KeepsAllBut [.regs] s (loadRegs n s) := by
  intro p hp
  cases p <;> simp_all [Part.same]

theorem storeRegs_advance_keepsAllBut (n : Nat) (s : State) : KeepsAllBut [.mem, .pc] s (storeRegs n s).advance :=
  ((storeRegs_keepsAllBut n s).mono (by decide)).trans ((advance_keepsAllBut (storeRegs n s)).mono (by decide))

theorem loadRegs_advance_keepsAllBut (n : Nat) (s : State) : KeepsAllBut [.regs, .pc] s (loadRegs n s).advance :=
  ((loadRegs_keepsAllBut n s).mono (by decide)).trans ((advance_keepsAllBut (loadRegs n s)).mono (by decide))

/-! ### What a store writes, address by address -/

theorem regNumber_val (r : Reg) : regNumber r.val = r := ((eq_regNumber_iff r.isLt).2 rfl).symm

/-- Register `i` of the run is read back at `I + i`: at most 16 addresses from `I` on do not meet modulo 4096. -/
theorem readByte_storeRegs_indexed (h : Memory.wf s.cfg s.mem) {n : Nat} (hn : n ≤ 16) {i : Reg} (hi : i.val < n) :
    (storeRegs n s).readByte (indexed s i.val) = s.reg i := by
  have hoffset : (indexed s i.val - s.I).toNat = i.val := (eq_indexed_iff s (by omega)).1 rfl
  rw [readByte_storeRegs_self h hn, hoffset, if_pos hi, regNumber_val]

/-- An address that is none of `I` to `I + n - 1` keeps its byte. -/
theorem readByte_storeRegs_of_ne (h : Memory.wf s.cfg s.mem) {n : Nat} (hn : n ≤ 16) {a : Addr}
    (ha : ∀ i : Reg, i.val < n → a ≠ indexed s i.val) : (storeRegs n s).readByte a = s.readByte a := by
  have houtside : ¬ (a - s.I).toNat < n := fun hlt =>
    ha ⟨(a - s.I).toNat, by omega⟩ hlt ((eq_indexed_iff s (by omega)).2 rfl)
  rw [readByte_storeRegs_self h hn, if_neg houtside]

/-! ### The arms of `exec` -/

theorem exec_store (x : Reg) (s : State) : exec (.store x) s = .next (storeRegs (x.val + 1) s).advance := rfl

theorem exec_load (x : Reg) (s : State) : exec (.load x) s = .next (loadRegs (x.val + 1) s).advance := rfl

/-! ### The obligations -/

/-- Settles O43: the run of `x + 1` stores reads back at `I + i` what `V[i]` holds, and nowhere else changes a byte. -/
theorem storeWritesTheRegisterRun : Obligations.StoreWritesTheRegisterRun := by
  unfold Obligations.StoreWritesTheRegisterRun
  intro x s hinv
  refine ⟨_, exec_store x s, ?stored, ?others, ?pc, storeRegs_advance_keepsAllBut _ s⟩
  case stored => exact fun i hi => readByte_storeRegs_indexed hinv.memory x.isLt (Nat.lt_succ_of_le hi)
  case others =>
    exact fun a ha => readByte_storeRegs_of_ne hinv.memory x.isLt fun i hi => ha i (Nat.le_of_lt_succ hi)
  case pc => rw [State.advance_pc, storeRegs_pc]

/-- Settles O44: the run of `x + 1` loads writes each `V[i]` with `i ≤ x` once, from `I + i`, and memory does not change
under it. -/
theorem loadReadsTheRegisterRun : Obligations.LoadReadsTheRegisterRun := by
  unfold Obligations.LoadReadsTheRegisterRun
  intro x s
  refine ⟨_, exec_load x s, ?loaded, ?above, ?pc, loadRegs_advance_keepsAllBut _ s⟩
  case loaded =>
    intro i hi
    rw [State.reg_advance, reg_loadRegs_self s x.isLt, if_pos (Nat.lt_succ_of_le hi), indexed]
  case above =>
    intro i hi
    rw [State.reg_advance, reg_loadRegs_self s x.isLt, if_neg (by omega)]
  case pc => rw [State.advance_pc, loadRegs_pc]

end Sys2Proof.Machine
end

section
/-!
PROOFS. The timer instructions `FX07`, `FX15` and `FX18`, and what a number of ticks leaves of the delay timer
(45_keys_timers.md R147, R149, R150).
-/

namespace Sys2Proof.Machine

variable (s : State)

/-! ### What setting a timer leaves unchanged -/

theorem setDelay_keepsAllBut (v : Byte) : KeepsAllBut [.delay] s (s.setDelay v) := by
  intro p hp
  cases p <;> simp_all [Part.same]

theorem setSound_keepsAllBut (v : Byte) : KeepsAllBut [.sound] s (s.setSound v) := by
  intro p hp
  cases p <;> simp_all [Part.same]

theorem setDelay_advance_keepsAllBut (v : Byte) : KeepsAllBut [.delay, .pc] s (s.setDelay v).advance :=
  ((setDelay_keepsAllBut s v).mono (by decide)).trans ((advance_keepsAllBut (s.setDelay v)).mono (by decide))

theorem setSound_advance_keepsAllBut (v : Byte) : KeepsAllBut [.sound, .pc] s (s.setSound v).advance :=
  ((setSound_keepsAllBut s v).mono (by decide)).trans ((advance_keepsAllBut (s.setSound v)).mono (by decide))

/-! ### The delay timer under ticks -/

@[simp] theorem tick_DT : (tick s).DT = countDown s.DT := rfl

/-- `k` ticks take `k` from the delay timer, floored at 0 (R149, R163): the subtraction is that of `Nat`. -/
theorem ticks_DT_toNat (k : Nat) : (ticks k s).DT.toNat = s.DT.toNat - k := by
  induction k with
  | zero => rfl
  | succ k ih =>
    calc (ticks (k + 1) s).DT.toNat
        = (ticks k s).DT.toNat - 1 := by rw [ticks, tick_DT, countDown_toNat]
      _ = s.DT.toNat - (k + 1) := by rw [ih, Nat.sub_sub]

/-! ### The arms of `exec` -/

theorem exec_getdt (x : Reg) : exec (.getdt x) s = .next (s.setReg x s.DT).advance := rfl

theorem exec_setdt (x : Reg) : exec (.setdt x) s = .next (s.setDelay (s.reg x)).advance := rfl

theorem exec_setst (x : Reg) : exec (.setst x) s = .next (s.setSound (s.reg x)).advance := rfl

/-! ### The obligations -/

/-- Settles O51: `FX07` is a write of register `x`, so `DT` is in its frame; `FX18` is a write of `ST`. -/
theorem readDelayAndSetSound : Obligations.ReadDelayAndSetSound := by
  unfold Obligations.ReadDelayAndSetSound
  intro x s
  constructor
  · exact ⟨_, exec_getdt s x, setReg_advance_effect s x s.DT⟩
  · exact ⟨_, exec_setst s x, s.setSound_ST (s.reg x), (s.setSound (s.reg x)).advance_pc,
      setSound_advance_keepsAllBut s (s.reg x)⟩

/-- Settles O52: `FX15` leaves `V[x]` in `DT`, and the ticks count down from there. -/
theorem delayTimerCountsDownByTicks : Obligations.DelayTimerCountsDownByTicks := by
  unfold Obligations.DelayTimerCountsDownByTicks
  intro x s
  exact ⟨_, exec_setdt s x, s.setDelay_DT (s.reg x), (s.setDelay (s.reg x)).advance_pc,
    setDelay_advance_keepsAllBut s (s.reg x), ticks_DT_toNat _⟩

end Sys2Proof.Machine
end

section
/-!
PROOFS. The flag-store instructions `FX75` and `FX85`: each moves bytes between the registers from `V[0]` on and the
flag store from `flag[0]` on, then advances, and fails before that when `x` is above 7
(46_flag_store.md R155 to R157).
-/

namespace Sys2Proof.Machine

variable {s : State}

/-! ### What a flag run leaves unchanged -/

theorem saveFlags_keepsAllBut (n : Nat) (s : State) : KeepsAllBut [.flagStore] s (saveFlags n s) := by
  intro p hp
  cases p <;> simp_all [Part.same]

theorem loadFlags_keepsAllBut (n : Nat) (s : State) : KeepsAllBut [.regs] s (loadFlags n s) := by
  intro p hp
  cases p <;> simp_all [Part.same]

theorem setFlagsDirty_keepsAllBut (s : State) (b : Bool) : KeepsAllBut [.flagsDirty] s (s.setFlagsDirty b) := by
  intro p hp
  cases p <;> simp_all [Part.same]

theorem saveFlags_setFlagsDirty_advance_keepsAllBut (n : Nat) (s : State) (b : Bool) :
    KeepsAllBut [.flagStore, .flagsDirty, .pc] s ((saveFlags n s).setFlagsDirty b).advance :=
  ((saveFlags_keepsAllBut n s).mono (by decide)).trans <|
    ((setFlagsDirty_keepsAllBut (saveFlags n s) b).mono (by decide)).trans <|
      (advance_keepsAllBut ((saveFlags n s).setFlagsDirty b)).mono (by decide)

theorem loadFlags_advance_keepsAllBut (n : Nat) (s : State) : KeepsAllBut [.regs, .pc] s (loadFlags n s).advance :=
  ((loadFlags_keepsAllBut n s).mono (by decide)).trans ((advance_keepsAllBut (loadFlags n s)).mono (by decide))

/-! ### What a flag run moves, byte by byte -/

theorem flagNumber_val (k : Fin 8) : flagNumber k.val = k := Fin.ext (Nat.mod_eq_of_lt k.isLt)

/-- A flag byte of the run holds the register of the same number. -/
theorem flagByte_saveFlags_of_lt {n : Nat} (hn : n ≤ 8) {k : Fin 8} {r : Reg} (hr : r.val = k.val) (hk : k.val < n) :
    (saveFlags n s).flagByte k = s.reg r := by
  rw [flagByte_saveFlags_self s hn, if_pos hk, ← hr, regNumber_val]

theorem flagByte_saveFlags_of_ge {n : Nat} (hn : n ≤ 8) {k : Fin 8} (hk : n ≤ k.val) :
    (saveFlags n s).flagByte k = s.flagByte k := by
  rw [flagByte_saveFlags_self s hn, if_neg (Nat.not_lt.2 hk)]

/-- A register of the run holds the flag byte of the same number. -/
theorem reg_loadFlags_of_lt {n : Nat} (hn : n ≤ 8) {k : Fin 8} {r : Reg} (hr : r.val = k.val) (hk : k.val < n) :
    (loadFlags n s).reg r = s.flagByte k := by
  rw [reg_loadFlags_self s hn, if_pos (hr ▸ hk), hr, flagNumber_val]

theorem reg_loadFlags_of_ge {n : Nat} (hn : n ≤ 8) {r : Reg} (hr : n ≤ r.val) :
    (loadFlags n s).reg r = s.reg r := by
  rw [reg_loadFlags_self s hn, if_neg (Nat.not_lt.2 hr)]

/-! ### The arms of `exec`, on either side of the overflow guard -/

variable {x : Reg}

theorem exec_savef_of_gt (hx : 7 < x.val) (s : State) : exec (.savef x) s = .fault .flagOverflow :=
  if_pos hx

theorem exec_savef_of_le (hx : x.val ≤ 7) (s : State) :
    exec (.savef x) s = .next ((saveFlags (x.val + 1) s).setFlagsDirty true).advance :=
  if_neg (Nat.not_lt.2 hx)

theorem exec_loadf_of_gt (hx : 7 < x.val) (s : State) : exec (.loadf x) s = .fault .flagOverflow :=
  if_pos hx

theorem exec_loadf_of_le (hx : x.val ≤ 7) (s : State) :
    exec (.loadf x) s = .next (loadFlags (x.val + 1) s).advance :=
  if_neg (Nat.not_lt.2 hx)

/-! ### The obligations -/

/-- Settles O57: within the guard, the `x + 1` bytes of the run fit the flag store, and each is written once, from the
register of its number. -/
theorem savefFillsTheFlagStore : Obligations.SavefFillsTheFlagStore := by
  unfold Obligations.SavefFillsTheFlagStore
  intro x s
  refine ⟨fun hx => exec_savef_of_gt hx s, fun hx => ?_⟩
  have hrun : x.val + 1 ≤ 8 := Nat.succ_le_succ hx
  refine ⟨_, exec_savef_of_le hx s, ?saved, ?above, ?dirty, ?pc,
    saveFlags_setFlagsDirty_advance_keepsAllBut _ s true⟩
  case saved =>
    intro k r hr hk
    rw [State.flagByte_advance, State.flagByte_setFlagsDirty, flagByte_saveFlags_of_lt hrun hr (Nat.lt_succ_of_le hk)]
  case above =>
    intro k hk
    rw [State.flagByte_advance, State.flagByte_setFlagsDirty, flagByte_saveFlags_of_ge hrun hk]
  case dirty => rw [State.advance_flagsDirty, State.setFlagsDirty_flagsDirty]
  case pc => rw [State.advance_pc, State.setFlagsDirty_pc, saveFlags_pc]

/-- Settles O58: within the guard, each register up to `x` is written once, from the flag byte of its number, which the
run does not change. -/
theorem loadfReadsTheFlagStore : Obligations.LoadfReadsTheFlagStore := by
  unfold Obligations.LoadfReadsTheFlagStore
  intro x s
  refine ⟨fun hx => exec_loadf_of_gt hx s, fun hx => ?_⟩
  have hrun : x.val + 1 ≤ 8 := Nat.succ_le_succ hx
  refine ⟨_, exec_loadf_of_le hx s, ?loaded, ?above, ?pc, loadFlags_advance_keepsAllBut _ s⟩
  case loaded =>
    intro k r hr hk
    rw [State.reg_advance, reg_loadFlags_of_lt hrun hr (Nat.lt_succ_of_le hk)]
  case above =>
    intro r hr
    rw [State.reg_advance, reg_loadFlags_of_ge hrun hr]
  case pc => rw [State.advance_pc, loadFlags_pc]

end Sys2Proof.Machine
end

section
/-!
PROOFS. The dirty bits under the operations: an acknowledgment clears its bit, no other operation but `init` clears it
(48_host_operations.md R167, R170).
-/

namespace Sys2Proof.Machine

variable {s t : State}

/-! ### Dirty bits that stay set -/

/-- A dirty bit that is set in `s` is set in `t`. -/
def KeepsSetDirtyBits (s t : State) : Prop :=
  (s.dispDirty = true → t.dispDirty = true) ∧ (s.flagsDirty = true → t.flagsDirty = true)

theorem keepsSetDirtyBits_of_eq (hdisp : t.dispDirty = s.dispDirty) (hflags : t.flagsDirty = s.flagsDirty) :
    KeepsSetDirtyBits s t :=
  ⟨hdisp.trans, hflags.trans⟩

/-- A frame that leaves out both dirty bits keeps them. -/
theorem KeepsAllBut.keepsSetDirtyBits {changed : List Part} (h : KeepsAllBut changed s t)
    (hdisp : .dispDirty ∉ changed) (hflags : .flagsDirty ∉ changed) : KeepsSetDirtyBits s t :=
  keepsSetDirtyBits_of_eq (h .dispDirty hdisp) (h .flagsDirty hflags)

/-- `00E0` and `DXYN` set the display's bit, `FX75` the flag store's, and every other instruction writes neither. -/
theorem exec_keepsSetDirtyBits {i : Instr} (h : exec i s = .next t) : KeepsSetDirtyBits s t := by
  cases i with
  | ret => obtain ⟨k, -, rfl⟩ := exec_ret_next h; exact keepsSetDirtyBits_of_eq rfl rfl
  | call nnn => obtain ⟨k, -, rfl⟩ := exec_call_next h; exact keepsSetDirtyBits_of_eq rfl rfl
  | cls => cases Host.Outcome.next.inj h; exact ⟨fun _ => rfl, id⟩
  | drw x y n => cases Host.Outcome.next.inj h; exact ⟨fun _ => rfl, id⟩
  | savef x => obtain ⟨-, rfl⟩ := exec_savef_next h; exact ⟨by simp, fun _ => rfl⟩
  | loadf x =>
    obtain ⟨-, rfl⟩ := exec_loadf_next h
    exact (loadFlags_advance_keepsAllBut _ s).keepsSetDirtyBits (by decide) (by decide)
  | store x =>
    cases Host.Outcome.next.inj h
    exact (storeRegs_advance_keepsAllBut _ s).keepsSetDirtyBits (by decide) (by decide)
  | load x =>
    cases Host.Outcome.next.inj h
    exact (loadRegs_advance_keepsAllBut _ s).keepsSetDirtyBits (by decide) (by decide)
  | _ => cases Host.Outcome.next.inj h; exact keepsSetDirtyBits_of_eq rfl rfl

/-- A step that does not fail was gated or executed an instruction; a failed one leaves the state as it was. -/
theorem stepResponse_keepsSetDirtyBits {r : Response} (h : stepResponse s = .ok r) : KeepsSetDirtyBits s r.state := by
  rcases stepResponse_cases h with ⟨hstep, -⟩ | ⟨e, -, hsame, -⟩
  · obtain ⟨-, ⟨-, hsame⟩ | ⟨-, i, -, hexec⟩⟩ := step_next_cases hstep
    · exact hsame ▸ ⟨id, id⟩
    · exact exec_keepsSetDirtyBits hexec
  · exact hsame ▸ ⟨id, id⟩

theorem setKeys_keepsSetDirtyBits (mask : KeyMask) (s : State) : KeepsSetDirtyBits s (setKeys mask s) := by
  obtain ⟨r, k, -, -, hset⟩ | ⟨-, hset⟩ := setKeys_cases mask s <;> rw [hset] <;> exact keepsSetDirtyBits_of_eq rfl rfl

theorem state_of_harmless {f : State → State} {r : Response} (h : harmless f s = .ok r) : r.state = f s := by
  cases hp : s.poisoned with
  | true => rw [harmless_poisoned hp] at h; cases h
  | false => rw [harmless_ready hp] at h; cases h; rfl

/-- An operation that is neither `init` nor an acknowledgment clears no dirty bit. -/
theorem transact_keepsSetDirtyBits {op : Op} {r : Response} (h : transact op s = .ok r) (hinit : op.isInit = false)
    (hdisp : op ≠ .clearDisplayDirty) (hflags : op ≠ .clearFlagsDirty) : KeepsSetDirtyBits s r.state := by
  cases op with
  | init program seed initFlags => cases hinit
  | step => exact stepResponse_keepsSetDirtyBits h
  | tick =>
    rw [state_of_harmless h]
    exact (tick_keepsAllBut s).keepsSetDirtyBits (by decide) (by decide)
  | setKeys mask =>
    rw [state_of_harmless h]
    exact setKeys_keepsSetDirtyBits mask s
  | clearDisplayDirty => exact absurd rfl hdisp
  | clearFlagsDirty => exact absurd rfl hflags

/-! ### The obligation -/

/-- Settles O23: an acknowledgment is one assignment to its bit, so it keeps the other bit; the operations that are no
acknowledgment keep both. -/
theorem onlyAcknowledgmentsClearDirtyBits : Obligations.OnlyAcknowledgmentsClearDirtyBits := by
  unfold Obligations.OnlyAcknowledgmentsClearDirtyBits
  refine ⟨fun s hp => ⟨?ackDisplay, ?ackFlags⟩, fun op s r h hop => ?kept⟩
  case ackDisplay => exact ⟨_, harmless_ready hp _, rfl, clearDisplayDirty_keepsAllBut s⟩
  case ackFlags => exact ⟨_, harmless_ready hp _, rfl, clearFlagsDirty_keepsAllBut s⟩
  case kept =>
    cases op with
    | clearDisplayDirty =>
      rw [state_of_harmless h]
      exact ⟨fun hne => absurd rfl hne, fun _ => id⟩
    | clearFlagsDirty =>
      rw [state_of_harmless h]
      exact ⟨fun _ => id, fun hne => absurd rfl hne⟩
    | _ =>
      obtain ⟨hdisp, hflags⟩ := transact_keepsSetDirtyBits h hop nofun nofun
      exact ⟨fun _ => hdisp, fun _ => hflags⟩

end Sys2Proof.Machine
end

section
/-!
PROOFS. The tick and the outputs that show the state as it is (48_host_operations.md R163, R165, R166, R168, R169,
R173).
-/

namespace Sys2Proof.Machine

variable {s : State}

/-! ### The sound timer under a tick -/

@[simp] theorem tick_ST (s : State) : (tick s).ST = countDown s.ST := rfl

/-! ### The outputs -/

theorem observe_ready (hp : s.poisoned = false) : observe s = .ok (outputsOf s) := by
  simp [observe, hp]

theorem waitingQ_iff (s : State) : waitingQ s = true ↔ s.wait ≠ none := Option.isSome_iff_ne_none

/-- `pc_q` is `pc` with four zero bits above it (R173). -/
theorem pcQ_toNat (s : State) : (pcQ s).toNat = s.pc.toNat := BitVec.toNat_setWidth_of_le (by decide)

theorem exec_waitk (x : Reg) (s : State) : exec (.waitk x) s = .next (s.setWait (some x)).advance := rfl

/-- `FX0A` raises `waiting_q` (R165). -/
theorem waitingQ_of_waitk {x : Reg} {t : State} (h : exec (.waitk x) s = .next t) : waitingQ t = true := by
  rw [exec_waitk] at h
  cases h
  rfl

/-- A press ends the wait, and `waiting_q` with it (R164, R165). -/
theorem waitingQ_setKeys_of_press {mask : KeyMask} (hw : s.wait ≠ none) (hpress : newlyPressed s mask ≠ 0) :
    waitingQ (setKeys mask s) = false := by
  obtain ⟨r, k, -, -, hset⟩ | ⟨hnone | hnone, -⟩ := setKeys_cases mask s
  · rw [hset]; rfl
  · exact absurd hnone hw
  · exact absurd hnone hpress

/-! ### The obligations -/

/-- Settles O54: a tick counts each timer down once and writes nothing else. -/
theorem tickTakesBothTimersDown : Obligations.TickTakesBothTimersDown := by
  unfold Obligations.TickTakesBothTimersDown
  intro s hp
  refine ⟨_, harmless_ready hp tick, ?delay, ?sound, tick_keepsAllBut s⟩
  case delay => rw [tick_DT, countDown_toNat]
  case sound => rw [tick_ST, countDown_toNat]

/-- Settles O59: pixel `(px, py)` is bit `(64 * py + px) mod 8` of byte `(64 * py + px) div 8` in the output as in the
buffer, which the output copies. -/
theorem outputsShowTheState : Obligations.OutputsShowTheState := by
  unfold Obligations.OutputsShowTheState
  refine ⟨fun s hp => ?outputs, fun x s t h => waitingQ_of_waitk h, fun mask s hw hm => waitingQ_setKeys_of_press hw hm⟩
  have hpixels (px : Fin 64) (py : Fin 32) : ∃ k : Fin 256, k.val = (64 * py.val + px.val) / 8 ∧
      ((outputsOf s).dispQ.get k).getLsbD ((64 * py.val + px.val) % 8) = pixel s.fb px py :=
    ⟨pixelByte px py, rfl, rfl⟩
  exact ⟨_, observe_ready hp, waitingQ_iff s, rfl, rfl, hpixels, fun _ => rfl, pcQ_toNat s⟩

end Sys2Proof.Machine
end

section
/-!
PROOFS. What can fail, and with which error: four instructions, the word that is none, and `init`
(60_exceptions.md R181).
-/

namespace Sys2Proof.Machine

variable {s : State} {i : Instr} {e : Fault}

/-! ### The instructions -/

/-- All an instruction can answer: a next state, or the one error of one of the four instructions that can fail. -/
theorem exec_cases (i : Instr) (s : State) :
    (∃ t, exec i s = .next t) ∨
    (i = .ret ∧ exec i s = .fault .badReturn) ∨
    (∃ nnn, i = .call nnn ∧ exec i s = .fault .stackOverflow) ∨
    (∃ x, (i = .savef x ∨ i = .loadf x) ∧ exec i s = .fault .flagOverflow) := by
  cases i with
  | ret =>
    obtain ⟨_, hnext⟩ | ⟨-, hfault⟩ := popAndJump_cases s
    · exact .inl ⟨_, hnext⟩
    · exact .inr (.inl ⟨rfl, hfault⟩)
  | call nnn =>
    obtain ⟨_, hnext⟩ | ⟨-, hfault⟩ := pushAndJump_cases s (nextPc s) nnn
    · exact .inl ⟨_, hnext⟩
    · exact .inr (.inr (.inl ⟨nnn, rfl, hfault⟩))
  | savef x =>
    obtain hx | hx := Nat.lt_or_ge 7 x.val
    · exact .inr (.inr (.inr ⟨x, .inl rfl, exec_savef_of_gt hx s⟩))
    · exact .inl ⟨_, exec_savef_of_le hx s⟩
  | loadf x =>
    obtain hx | hx := Nat.lt_or_ge 7 x.val
    · exact .inr (.inr (.inr ⟨x, .inr rfl, exec_loadf_of_gt hx s⟩))
    · exact .inl ⟨_, exec_loadf_of_le hx s⟩
  | _ => exact .inl ⟨_, rfl⟩

/-- A failing instruction is one of the four, and fails with the error of its own. -/
theorem exec_fault_cases (h : exec i s = .fault e) :
    (i = .ret ∧ e = .badReturn) ∨ (∃ nnn, i = .call nnn ∧ e = .stackOverflow) ∨
      (∃ x, (i = .savef x ∨ i = .loadf x) ∧ e = .flagOverflow) := by
  obtain ⟨t, hi⟩ | ⟨hret, hi⟩ | ⟨nnn, hcall, hi⟩ | ⟨x, hflag, hi⟩ := exec_cases i s <;> cases hi.symm.trans h
  · exact .inl ⟨hret, rfl⟩
  · exact .inr (.inl ⟨nnn, hcall, rfl⟩)
  · exact .inr (.inr ⟨x, hflag, rfl⟩)

/-- The other 32 instructions always succeed (R181). -/
theorem exec_completes (s : State) (hret : i ≠ .ret) (hcall : ∀ nnn, i ≠ .call nnn) (hsavef : ∀ x, i ≠ .savef x)
    (hloadf : ∀ x, i ≠ .loadf x) : ∃ t, exec i s = .next t := by
  obtain hnext | ⟨hi, -⟩ | ⟨nnn, hi, -⟩ | ⟨x, hi | hi, -⟩ := exec_cases i s
  · exact hnext
  · exact absurd hi hret
  · exact absurd hi (hcall nnn)
  · exact absurd hi (hsavef x)
  · exact absurd hi (hloadf x)

/-! ### The operations -/

/-- A step that fails was not gated, and fetched an illegal word or an instruction that fails (R91, R93, R94). -/
theorem step_fault_cases (h : step s = .fault e) : s.wait = none ∧
    (e = .illegalOpcode ∧ decode (fetch16 s s.pc) = none ∨
      ∃ i, decode (fetch16 s s.pc) = some i ∧ exec i s = .fault e) := by
  obtain ⟨-, hs⟩ | ⟨-, -, hs⟩ | ⟨-, hw, hd, hs⟩ | ⟨-, hw, i, hd, hs⟩ := step_cases s <;> rw [hs] at h
  · cases h
  · cases h
  · cases h; exact ⟨hw, .inl ⟨rfl, hd⟩⟩
  · exact ⟨hw, .inr ⟨i, hd, h⟩⟩

theorem init_fail {program : List Byte} {seed : Seed} {f : PackedFlags}
    (h : (init program seed f s).status = .fail e) : e = .programTooLong := by
  obtain hlong | hfits := Nat.lt_or_ge 3584 program.length
  · rw [init_tooLong hlong] at h; cases h; rfl
  · rw [init_fits hfits] at h; cases h

/-- Every operation but `init` and `step` succeeds on a block that is not poisoned (R12). -/
theorem transact_succeeds {op : Op} (hp : s.poisoned = false) (hstep : op ≠ .step) (hinit : op.isInit = false) :
    ∃ t, transact op s = .ok { state := t, status := .ok } := by
  cases op with
  | init program seed initFlags => cases hinit
  | step => exact absurd rfl hstep
  | tick => exact ⟨_, harmless_ready hp tick⟩
  | setKeys mask => exact ⟨_, harmless_ready hp (setKeys mask)⟩
  | clearDisplayDirty => exact ⟨_, harmless_ready hp clearDisplayDirty⟩
  | clearFlagsDirty => exact ⟨_, harmless_ready hp clearFlagsDirty⟩

/-! ### The obligation -/

/-- Settles O18: a step fails on an illegal word or where the decoded instruction does, and the four instructions that
can fail have one error each. -/
theorem onlyTheseOperationsFail : Obligations.OnlyTheseOperationsFail := by
  unfold Obligations.OnlyTheseOperationsFail
  refine ⟨fun _ _ _ => exec_fault_cases, fun _ s => exec_completes s, fun s e h => ?failedStep,
    fun _ _ _ _ _ => init_fail, fun _ _ => transact_succeeds, fun _ => observe_ready⟩
  case failedStep =>
    obtain ⟨hw, ⟨he, hd⟩ | ⟨i, hd, hexec⟩⟩ := step_fault_cases h
    · exact ⟨hw, .inl ⟨he, hd⟩⟩
    · refine ⟨hw, .inr ?_⟩
      obtain ⟨rfl, he⟩ | ⟨nnn, rfl, he⟩ | ⟨x, rfl | rfl, he⟩ := exec_fault_cases hexec
      · exact .inr (.inl ⟨he, hd⟩)
      · exact .inl ⟨he, nnn, hd⟩
      · exact .inr (.inr ⟨he, x, .inl hd⟩)
      · exact .inr (.inr ⟨he, x, .inr hd⟩)

end Sys2Proof.Machine
end

section
/-!
PROOFS. The frame of every instruction: the pieces of state that each of the 36 can change, and what follows for the
pieces one at a time (40_step_dispatch.md R94, R95).
-/

namespace Sys2Proof.Machine

variable {s t : State} {i : Instr}

/-! ### What the remaining setters leave unchanged -/

theorem setIndex_keepsAllBut (s : State) (a : Addr) : KeepsAllBut [.index] s (s.setIndex a) := by
  intro p hp
  cases p <;> simp_all [Part.same]

theorem setStackEntry_keepsAllBut (s : State) (k : Fin 16) (a : Addr) :
    KeepsAllBut [.stack] s (s.setStackEntry k a) := by
  intro p hp
  cases p <;> simp_all [Part.same]

theorem setSp_keepsAllBut (s : State) (n : Fin 17) : KeepsAllBut [.sp] s (s.setSp n) := by
  intro p hp
  cases p <;> simp_all [Part.same]

theorem setDisplay_keepsAllBut (s : State) (fb : Vector Byte 256) : KeepsAllBut [.display] s (s.setDisplay fb) := by
  intro p hp
  cases p <;> simp_all [Part.same]

theorem setDispDirty_keepsAllBut (s : State) (b : Bool) : KeepsAllBut [.dispDirty] s (s.setDispDirty b) := by
  intro p hp
  cases p <;> simp_all [Part.same]

theorem setWait_keepsAllBut (s : State) (w : Option Reg) : KeepsAllBut [.wait] s (s.setWait w) := by
  intro p hp
  cases p <;> simp_all [Part.same]

theorem setRng_keepsAllBut (s : State) (g : Config.RngState) : KeepsAllBut [.rng] s (s.setRng g) := by
  intro p hp
  cases p <;> simp_all [Part.same]

theorem writeByte_keepsAllBut (s : State) (a : Addr) (b : Byte) : KeepsAllBut [.mem] s (s.writeByte a b) := by
  intro p hp
  cases p <;> simp_all [Part.same]

theorem setResultAndFlag_keepsAllBut (s : State) (x : Reg) (v : Byte) (f : Bool) :
    KeepsAllBut [.regs] s (s.setResultAndFlag x v f) :=
  (setReg_keepsAllBut s x v).trans (setReg_keepsAllBut _ vf (flagValue f))

/-- Frames of consecutive updates add up. -/
theorem KeepsAllBut.append {few more : List Part} {u : State} (h : KeepsAllBut few s t)
    (h' : KeepsAllBut more t u) : KeepsAllBut (few ++ more) s u :=
  (h.mono (List.subset_append_left few more)).trans (h'.mono (List.subset_append_right few more))

/-- An update followed by `pc <- next`. -/
theorem KeepsAllBut.advance {changed : List Part} (h : KeepsAllBut changed s t) :
    KeepsAllBut (changed ++ [.pc]) s t.advance :=
  h.append (advance_keepsAllBut t)

/-! ### The frame of an instruction -/

/-- The pieces of state that an instruction can change. -/
def changedParts : Instr → List Part
  | .cls => [.display, .dispDirty, .pc]
  | .ret => [.sp, .pc]
  | .call _ => [.stack, .sp, .pc]
  | .jp _ | .jpv0 _ | .seqi _ _ | .snei _ _ | .seq _ _ | .sne _ _ | .skp _ | .sknp _ => [.pc]
  | .ldi _ _ | .addi _ _ | .mov _ _ | .or _ _ | .and _ _ | .xor _ _ | .add _ _ | .sub _ _ | .shr _ _ | .subn _ _
  | .shl _ _ | .getdt _ | .load _ | .loadf _ => [.regs, .pc]
  | .rnd _ _ => [.rng, .regs, .pc]
  | .seti _ | .addix _ | .font _ => [.index, .pc]
  | .drw _ _ _ => [.display, .regs, .dispDirty, .pc]
  | .waitk _ => [.wait, .pc]
  | .setdt _ => [.delay, .pc]
  | .setst _ => [.sound, .pc]
  | .bcd _ | .store _ => [.mem, .pc]
  | .savef _ => [.flagStore, .flagsDirty, .pc]

theorem bcdWrites_keepsAllBut (s : State) (a₀ a₁ a₂ : Addr) (b₀ b₁ b₂ : Byte) :
    KeepsAllBut [.mem] s (((s.writeByte a₀ b₀).writeByte a₁ b₁).writeByte a₂ b₂) :=
  ((writeByte_keepsAllBut s a₀ b₀).trans (writeByte_keepsAllBut _ a₁ b₁)).trans (writeByte_keepsAllBut _ a₂ b₂)

/-- An instruction that answers a next state changes no piece of state but its own ones. -/
theorem exec_keepsAllBut (h : exec i s = .next t) : KeepsAllBut (changedParts i) s t := by
  cases i with
  | ret =>
    obtain ⟨k, -, rfl⟩ := exec_ret_next h
    exact (setSp_keepsAllBut s _).append (setPc_keepsAllBut _ _)
  | call nnn =>
    obtain ⟨k, -, rfl⟩ := exec_call_next h
    exact (setStackEntry_keepsAllBut s k _).append ((setSp_keepsAllBut _ _).append (setPc_keepsAllBut _ nnn))
  | savef x =>
    obtain ⟨-, rfl⟩ := exec_savef_next h
    exact saveFlags_setFlagsDirty_advance_keepsAllBut _ s true
  | loadf x =>
    obtain ⟨-, rfl⟩ := exec_loadf_next h
    exact loadFlags_advance_keepsAllBut _ s
  | cls =>
    cases h
    exact ((setDisplay_keepsAllBut s _).append (setDispDirty_keepsAllBut _ true)).advance
  | drw x y n =>
    cases h
    exact ((setDisplay_keepsAllBut s _).append
      ((setReg_keepsAllBut _ vf _).append (setDispDirty_keepsAllBut _ true))).advance
  | jp | jpv0 | seqi | snei | seq | sne | skp | sknp => cases h; exact setPc_keepsAllBut s _
  | ldi | addi | mov | or | and | xor | getdt => cases h; exact (setReg_keepsAllBut s _ _).advance
  | add | sub | shr | subn | shl => cases h; exact (setResultAndFlag_keepsAllBut s _ _ _).advance
  | rnd x nn => cases h; exact ((setRng_keepsAllBut s _).append (setReg_keepsAllBut _ x _)).advance
  | seti | addix | font => cases h; exact (setIndex_keepsAllBut s _).advance
  | waitk x => cases h; exact (setWait_keepsAllBut s _).advance
  | setdt x => cases h; exact (setDelay_keepsAllBut s _).advance
  | setst x => cases h; exact (setSound_keepsAllBut s _).advance
  | bcd x => cases h; exact (bcdWrites_keepsAllBut s _ _ _ _ _ _).advance
  | store x => cases h; exact storeRegs_advance_keepsAllBut _ s
  | load x => cases h; exact loadRegs_advance_keepsAllBut _ s

/-! ### The obligation -/

/-- Settles O20: each clause is the frame of the instruction, which leaves the piece out but for the named ones. -/
theorem onlyNamedInstructionsChangeEachPiece : Obligations.OnlyNamedInstructionsChangeEachPiece := by
  unfold Obligations.OnlyNamedInstructionsChangeEachPiece
  intro i s t h
  have hframe : ∀ p, p ∉ changedParts i → p.same s t := exec_keepsAllBut h
  clear h
  refine ⟨fun hbcd hstore => hframe _ ?mem, fun hseti haddix hfont => hframe _ ?index,
    fun hcall => ⟨hframe _ ?stack, fun hret => hframe _ ?sp⟩, fun hsetdt => hframe _ ?delay,
    fun hsetst => hframe _ ?sound, fun hcls hdrw => ⟨hframe _ ?display, hframe _ ?dispDirty⟩,
    fun hsavef => ⟨hframe _ ?flagStore, hframe _ ?flagsDirty⟩, fun hwaitk => hframe _ ?wait,
    fun hrnd => hframe _ ?rng, hframe _ ?keys, hframe _ ?poisoned, hframe _ ?cfg⟩
  all_goals clear hframe
  case mem =>
    cases i with
    | bcd x => exact absurd rfl (hbcd x)
    | store x => exact absurd rfl (hstore x)
    | _ => simp [changedParts]
  case index =>
    cases i with
    | seti a => exact absurd rfl (hseti a)
    | addix x => exact absurd rfl (haddix x)
    | font x => exact absurd rfl (hfont x)
    | _ => simp [changedParts]
  case stack =>
    cases i with
    | call a => exact absurd rfl (hcall a)
    | _ => simp [changedParts]
  case sp =>
    cases i with
    | call a => exact absurd rfl (hcall a)
    | ret => exact absurd rfl hret
    | _ => simp [changedParts]
  case delay =>
    cases i with
    | setdt x => exact absurd rfl (hsetdt x)
    | _ => simp [changedParts]
  case sound =>
    cases i with
    | setst x => exact absurd rfl (hsetst x)
    | _ => simp [changedParts]
  case display | dispDirty =>
    cases i with
    | cls => exact absurd rfl hcls
    | drw x y n => exact absurd rfl (hdrw x y n)
    | _ => simp [changedParts]
  case flagStore | flagsDirty =>
    cases i with
    | savef x => exact absurd rfl (hsavef x)
    | _ => simp [changedParts]
  case wait =>
    cases i with
    | waitk x => exact absurd rfl (hwaitk x)
    | _ => simp [changedParts]
  case rng =>
    cases i with
    | rnd x nn => exact absurd rfl (hrnd x nn)
    | _ => simp [changedParts]
  case keys | poisoned | cfg => cases i <;> simp [changedParts]

end Sys2Proof.Machine
end

section
/-!
PROOFS. The decoder by the fields of a word: which words decode to which instruction, the round trips of decoder and
encoder, the opcode table, and the illegal words (30_encoding.md R72 to R83).
-/

namespace Sys2Proof

variable {w : InstrWord} {i : Instr}

/-! ### The words of an instruction -/

/-- The word has the fixed fields of the instruction's pattern and its operands (R76). -/
def Fits (w : InstrWord) : Instr → Prop
  | .cls => w = 0x00E0
  | .ret => w = 0x00EE
  | .jp nnn => opOf w = 0x1 ∧ nnnOf w = nnn
  | .call nnn => opOf w = 0x2 ∧ nnnOf w = nnn
  | .seqi x nn => opOf w = 0x3 ∧ xOf w = x ∧ nnOf w = nn
  | .snei x nn => opOf w = 0x4 ∧ xOf w = x ∧ nnOf w = nn
  | .seq x y => opOf w = 0x5 ∧ nOf w = 0x0 ∧ xOf w = x ∧ yOf w = y
  | .ldi x nn => opOf w = 0x6 ∧ xOf w = x ∧ nnOf w = nn
  | .addi x nn => opOf w = 0x7 ∧ xOf w = x ∧ nnOf w = nn
  | .mov x y => opOf w = 0x8 ∧ nOf w = 0x0 ∧ xOf w = x ∧ yOf w = y
  | .or x y => opOf w = 0x8 ∧ nOf w = 0x1 ∧ xOf w = x ∧ yOf w = y
  | .and x y => opOf w = 0x8 ∧ nOf w = 0x2 ∧ xOf w = x ∧ yOf w = y
  | .xor x y => opOf w = 0x8 ∧ nOf w = 0x3 ∧ xOf w = x ∧ yOf w = y
  | .add x y => opOf w = 0x8 ∧ nOf w = 0x4 ∧ xOf w = x ∧ yOf w = y
  | .sub x y => opOf w = 0x8 ∧ nOf w = 0x5 ∧ xOf w = x ∧ yOf w = y
  | .shr x y => opOf w = 0x8 ∧ nOf w = 0x6 ∧ xOf w = x ∧ yOf w = y
  | .subn x y => opOf w = 0x8 ∧ nOf w = 0x7 ∧ xOf w = x ∧ yOf w = y
  | .shl x y => opOf w = 0x8 ∧ nOf w = 0xE ∧ xOf w = x ∧ yOf w = y
  | .sne x y => opOf w = 0x9 ∧ nOf w = 0x0 ∧ xOf w = x ∧ yOf w = y
  | .seti nnn => opOf w = 0xA ∧ nnnOf w = nnn
  | .jpv0 nnn => opOf w = 0xB ∧ nnnOf w = nnn
  | .rnd x nn => opOf w = 0xC ∧ xOf w = x ∧ nnOf w = nn
  | .drw x y n => opOf w = 0xD ∧ xOf w = x ∧ yOf w = y ∧ (nOf w).toNat = n
  | .skp x => opOf w = 0xE ∧ nnOf w = 0x9E ∧ xOf w = x
  | .sknp x => opOf w = 0xE ∧ nnOf w = 0xA1 ∧ xOf w = x
  | .getdt x => opOf w = 0xF ∧ nnOf w = 0x07 ∧ xOf w = x
  | .waitk x => opOf w = 0xF ∧ nnOf w = 0x0A ∧ xOf w = x
  | .setdt x => opOf w = 0xF ∧ nnOf w = 0x15 ∧ xOf w = x
  | .setst x => opOf w = 0xF ∧ nnOf w = 0x18 ∧ xOf w = x
  | .addix x => opOf w = 0xF ∧ nnOf w = 0x1E ∧ xOf w = x
  | .font x => opOf w = 0xF ∧ nnOf w = 0x29 ∧ xOf w = x
  | .bcd x => opOf w = 0xF ∧ nnOf w = 0x33 ∧ xOf w = x
  | .store x => opOf w = 0xF ∧ nnOf w = 0x55 ∧ xOf w = x
  | .load x => opOf w = 0xF ∧ nnOf w = 0x65 ∧ xOf w = x
  | .savef x => opOf w = 0xF ∧ nnOf w = 0x75 ∧ xOf w = x
  | .loadf x => opOf w = 0xF ∧ nnOf w = 0x85 ∧ xOf w = x


/-! ### A word that decodes fits its instruction -/

/-- What is read from the word, if anything, is an instruction that it fits. -/
def ReadsFitting (w : InstrWord) (read : Option Instr) : Prop := ∀ i ∈ read, Fits w i

theorem readsFitting_none : ReadsFitting w none := nofun

theorem readsFitting_some (h : Fits w i) : ReadsFitting w (some i) := by
  rintro _ ⟨⟩
  exact h

theorem readsFitting_ite {c : Prop} [Decidable c] {a b : Option Instr} (ha : c → ReadsFitting w a)
    (hb : ¬c → ReadsFitting w b) : ReadsFitting w (if c then a else b) := by
  split
  · next h => exact ha h
  · next h => exact hb h

/-- A branch of the decoder that reads an instruction at once. -/
theorem readsFitting_branch {c : Prop} [Decidable c] {b : Option Instr} (hi : c → Fits w i) (hb : ReadsFitting w b) :
    ReadsFitting w (if c then some i else b) :=
  readsFitting_ite (fun h => readsFitting_some (hi h)) fun _ => hb

theorem readsFitting_decodeFamily0 : ReadsFitting w (decodeFamily0 w) :=
  readsFitting_branch id <| readsFitting_branch id readsFitting_none

theorem readsFitting_decodeFamily8 (hop : opOf w = 0x8) : ReadsFitting w (decodeFamily8 w) :=
  readsFitting_branch (⟨hop, ·, rfl, rfl⟩) <| readsFitting_branch (⟨hop, ·, rfl, rfl⟩) <|
  readsFitting_branch (⟨hop, ·, rfl, rfl⟩) <| readsFitting_branch (⟨hop, ·, rfl, rfl⟩) <|
  readsFitting_branch (⟨hop, ·, rfl, rfl⟩) <| readsFitting_branch (⟨hop, ·, rfl, rfl⟩) <|
  readsFitting_branch (⟨hop, ·, rfl, rfl⟩) <| readsFitting_branch (⟨hop, ·, rfl, rfl⟩) <|
  readsFitting_branch (⟨hop, ·, rfl, rfl⟩) readsFitting_none

theorem readsFitting_decodeFamilyE (hop : opOf w = 0xE) : ReadsFitting w (decodeFamilyE w) :=
  readsFitting_branch (⟨hop, ·, rfl⟩) <| readsFitting_branch (⟨hop, ·, rfl⟩) readsFitting_none

theorem readsFitting_decodeFamilyF (hop : opOf w = 0xF) : ReadsFitting w (decodeFamilyF w) :=
  readsFitting_branch (⟨hop, ·, rfl⟩) <| readsFitting_branch (⟨hop, ·, rfl⟩) <|
  readsFitting_branch (⟨hop, ·, rfl⟩) <| readsFitting_branch (⟨hop, ·, rfl⟩) <|
  readsFitting_branch (⟨hop, ·, rfl⟩) <| readsFitting_branch (⟨hop, ·, rfl⟩) <|
  readsFitting_branch (⟨hop, ·, rfl⟩) <| readsFitting_branch (⟨hop, ·, rfl⟩) <|
  readsFitting_branch (⟨hop, ·, rfl⟩) <| readsFitting_branch (⟨hop, ·, rfl⟩) <|
  readsFitting_branch (⟨hop, ·, rfl⟩) readsFitting_none

/-- Branch by branch along the decoder, one leading nibble after the other. -/
theorem readsFitting_decode (w : InstrWord) : ReadsFitting w (decode w) := by
  unfold decode
  refine readsFitting_ite (fun _ => readsFitting_decodeFamily0) fun h0 => ?_
  refine readsFitting_ite (fun h => readsFitting_some ⟨h, rfl⟩) fun h1 => ?_
  refine readsFitting_ite (fun h => readsFitting_some ⟨h, rfl⟩) fun h2 => ?_
  refine readsFitting_ite (fun h => readsFitting_some ⟨h, rfl, rfl⟩) fun h3 => ?_
  refine readsFitting_ite (fun h => readsFitting_some ⟨h, rfl, rfl⟩) fun h4 => ?_
  refine readsFitting_ite (fun h => readsFitting_branch (⟨h, ·, rfl, rfl⟩) readsFitting_none) fun h5 => ?_
  refine readsFitting_ite (fun h => readsFitting_some ⟨h, rfl, rfl⟩) fun h6 => ?_
  refine readsFitting_ite (fun h => readsFitting_some ⟨h, rfl, rfl⟩) fun h7 => ?_
  refine readsFitting_ite (fun h => readsFitting_decodeFamily8 h) fun h8 => ?_
  refine readsFitting_ite (fun h => readsFitting_branch (⟨h, ·, rfl, rfl⟩) readsFitting_none) fun h9 => ?_
  refine readsFitting_ite (fun h => readsFitting_some ⟨h, rfl⟩) fun hA => ?_
  refine readsFitting_ite (fun h => readsFitting_some ⟨h, rfl⟩) fun hB => ?_
  refine readsFitting_ite (fun h => readsFitting_some ⟨h, rfl, rfl⟩) fun hC => ?_
  refine readsFitting_ite (fun h => readsFitting_some ⟨h, rfl, rfl, rfl⟩) fun hD => ?_
  refine readsFitting_ite (fun h => readsFitting_decodeFamilyE h) fun hE => ?_
  have hF : opOf w = 0xF := by bv_omega
  exact readsFitting_decodeFamilyF hF

theorem fits_of_decode (h : decode w = some i) : Fits w i := readsFitting_decode w i h

/-! ### A word decodes to the instruction that it fits -/

theorem decode_of_fits (h : Fits w i) : decode w = some i := by
  cases i with
  | cls | ret => cases h; rfl
  | jp | call | seti | jpv0 => obtain ⟨hop, rfl⟩ := h; simp [decode, hop]
  | seqi | snei | ldi | addi | rnd => obtain ⟨hop, rfl, rfl⟩ := h; simp [decode, hop]
  | seq | sne => obtain ⟨hop, hn, rfl, rfl⟩ := h; simp [decode, hop, hn]
  | mov | or | and | xor | add | sub | shr | subn | shl =>
    obtain ⟨hop, hn, rfl, rfl⟩ := h
    simp [decode, hop, decodeFamily8, hn]
  | drw x y n => obtain ⟨hop, rfl, rfl, rfl⟩ := h; simp [decode, hop]
  | skp | sknp => obtain ⟨hop, hnn, rfl⟩ := h; simp [decode, hop, decodeFamilyE, hnn]
  | getdt | waitk | setdt | setst | addix | font | bcd | store | load | savef | loadf =>
    obtain ⟨hop, hnn, rfl⟩ := h
    simp [decode, hop, decodeFamilyF, hnn]

/-! ### The encoder writes the fields, and the fields are the whole word -/

theorem fits_encode (h : i.wellFormed = true) : Fits (encode i) i := by
  cases i with
  | cls | ret => rfl
  | jp nnn | call nnn | seti nnn | jpv0 nnn =>
    exact ⟨opOf_encodeNnn (by decide) nnn, nnnOf_encodeNnn (by decide) nnn⟩
  | seqi x nn | snei x nn | ldi x nn | addi x nn | rnd x nn =>
    exact ⟨opOf_encodeXnn (by decide) x nn, xOf_encodeXnn (by decide) x nn, nnOf_encodeXnn (by decide) x nn⟩
  | seq x y | sne x y | mov x y | or x y | and x y | xor x y | add x y | sub x y | shr x y | subn x y | shl x y =>
    exact ⟨opOf_wordOfNibbles (by decide) x y (by decide), nOf_wordOfNibbles (by decide) x y (by decide),
      xOf_wordOfNibbles (by decide) x y (by decide), yOf_wordOfNibbles (by decide) x y (by decide)⟩
  | drw x y n =>
    have hn : n < 16 := Nat.lt_succ_of_le (of_decide_eq_true h)
    refine ⟨opOf_wordOfNibbles (by decide) x y hn, xOf_wordOfNibbles (by decide) x y hn,
      yOf_wordOfNibbles (by decide) x y hn, ?_⟩
    rw [encode, nOf_wordOfNibbles (by decide) x y hn, BitVec.toNat_ofNat, Nat.mod_eq_of_lt hn]
  | skp x | sknp x | getdt x | waitk x | setdt x | setst x | addix x | font x | bcd x | store x | load x | savef x
  | loadf x =>
    exact ⟨opOf_encodeXnn (by decide) x _, nnOf_encodeXnn (by decide) x _, xOf_encodeXnn (by decide) x _⟩

theorem toNat_div_of_opOf {op : Nat} (hlt : op < 16) (hop : opOf w = BitVec.ofNat 4 op) : w.toNat / 0x1000 = op := by
  have hbound := w.isLt
  have hfield := congrArg BitVec.toNat hop
  rw [opOf_toNat, BitVec.toNat_ofNat] at hfield
  omega

theorem encodeNnn_fields {op : Nat} (hlt : op < 16) (hop : opOf w = BitVec.ofNat 4 op) :
    encodeNnn op (nnnOf w) = w := by
  have hdiv := toNat_div_of_opOf hlt hop
  apply BitVec.eq_of_toNat_eq
  rw [encodeNnn_toNat hlt, nnnOf_toNat]
  omega

theorem encodeXnn_fields {op : Nat} (hlt : op < 16) (hop : opOf w = BitVec.ofNat 4 op) :
    encodeXnn op (xOf w) (nnOf w) = w := by
  have hdiv := toNat_div_of_opOf hlt hop
  apply BitVec.eq_of_toNat_eq
  rw [encodeXnn_toNat hlt, xOf_val, nnOf_toNat]
  omega

theorem wordOfNibbles_fields {op : Nat} (hlt : op < 16) (hop : opOf w = BitVec.ofNat 4 op) :
    wordOfNibbles op (xOf w) (yOf w) (nOf w).toNat = w := by
  have hdiv := toNat_div_of_opOf hlt hop
  apply BitVec.eq_of_toNat_eq
  rw [wordOfNibbles_toNat hlt (xOf w).isLt (yOf w).isLt (nOf w).isLt, xOf_val, yOf_val, nOf_toNat]
  omega

theorem encodeXnn_of_nnOf {op : Nat} {f : Byte} (hlt : op < 16) (hop : opOf w = BitVec.ofNat 4 op) (hf : nnOf w = f) :
    encodeXnn op (xOf w) f = w := hf ▸ encodeXnn_fields hlt hop

theorem wordOfNibbles_of_nOf {op n : Nat} (hlt : op < 16) (hop : opOf w = BitVec.ofNat 4 op)
    (hn : (nOf w).toNat = n) : wordOfNibbles op (xOf w) (yOf w) n = w := hn ▸ wordOfNibbles_fields hlt hop

theorem wellFormed_of_fits (h : Fits w i) : i.wellFormed = true := by
  cases i with
  | drw x y n =>
    obtain ⟨-, -, -, rfl⟩ := h
    exact decide_eq_true (Nat.le_of_lt_succ (nOf w).isLt)
  | _ => rfl

theorem encode_of_fits (h : Fits w i) : encode i = w := by
  cases i with
  | cls | ret => exact h.symm
  | jp | call | seti | jpv0 => obtain ⟨hop, rfl⟩ := h; exact encodeNnn_fields (by decide) hop
  | seqi | snei | ldi | addi | rnd => obtain ⟨hop, rfl, rfl⟩ := h; exact encodeXnn_fields (by decide) hop
  | seq | sne | mov | or | and | xor | add | sub | shr | subn | shl =>
    obtain ⟨hop, hn, rfl, rfl⟩ := h
    exact wordOfNibbles_of_nOf (by decide) hop (by rw [hn]; rfl)
  | drw x y n => obtain ⟨hop, rfl, rfl, rfl⟩ := h; exact wordOfNibbles_fields (by decide) hop
  | skp | sknp | getdt | waitk | setdt | setst | addix | font | bcd | store | load | savef | loadf =>
    obtain ⟨hop, hf, rfl⟩ := h
    exact encodeXnn_of_nnOf (by decide) hop hf

/-! ### The round trips -/

/-- Settles O6: the encoded word has the fields of the instruction. -/
theorem decodeOfEncodeIsTheInstruction : Obligations.DecodeOfEncodeIsTheInstruction := by
  unfold Obligations.DecodeOfEncodeIsTheInstruction
  exact fun i h => decode_of_fits (fits_encode h)

/-- Settles O7: the fields that the decoder reads are all of the word. -/
theorem encodeOfDecodeIsTheWord : Obligations.EncodeOfDecodeIsTheWord := by
  unfold Obligations.EncodeOfDecodeIsTheWord
  exact fun w i h => ⟨wellFormed_of_fits (fits_of_decode h), encode_of_fits (fits_of_decode h)⟩

/-! ### The opcode table -/

/-- The word of an instruction is a word of a row with its mnemonic. -/
theorem rowFits (i : Instr) : Laws.RowFits.Statement i := by
  cases i with
  | cls => exact Laws.RowFits.cls
  | ret => exact Laws.RowFits.ret
  | jp nnn => exact Laws.RowFits.jp nnn
  | call nnn => exact Laws.RowFits.call nnn
  | seqi x nn => exact Laws.RowFits.seqi x nn
  | snei x nn => exact Laws.RowFits.snei x nn
  | seq x y => exact Laws.RowFits.seq x y
  | ldi x nn => exact Laws.RowFits.ldi x nn
  | addi x nn => exact Laws.RowFits.addi x nn
  | mov x y => exact Laws.RowFits.mov x y
  | or x y => exact Laws.RowFits.or x y
  | and x y => exact Laws.RowFits.and x y
  | xor x y => exact Laws.RowFits.xor x y
  | add x y => exact Laws.RowFits.add x y
  | sub x y => exact Laws.RowFits.sub x y
  | shr x y => exact Laws.RowFits.shr x y
  | subn x y => exact Laws.RowFits.subn x y
  | shl x y => exact Laws.RowFits.shl x y
  | sne x y => exact Laws.RowFits.sne x y
  | seti nnn => exact Laws.RowFits.seti nnn
  | jpv0 nnn => exact Laws.RowFits.jpv0 nnn
  | rnd x nn => exact Laws.RowFits.rnd x nn
  | drw x y n => exact Laws.RowFits.drw x y n
  | skp x => exact Laws.RowFits.skp x
  | sknp x => exact Laws.RowFits.sknp x
  | getdt x => exact Laws.RowFits.getdt x
  | waitk x => exact Laws.RowFits.waitk x
  | setdt x => exact Laws.RowFits.setdt x
  | setst x => exact Laws.RowFits.setst x
  | addix x => exact Laws.RowFits.addix x
  | font x => exact Laws.RowFits.font x
  | bcd x => exact Laws.RowFits.bcd x
  | store x => exact Laws.RowFits.store x
  | load x => exact Laws.RowFits.load x
  | savef x => exact Laws.RowFits.savef x
  | loadf x => exact Laws.RowFits.loadf x

/-- Two rows that share a word agree on the bits that both fix. -/
theorem patterns_meet {row row' : OpcodeRow} (h : row.holds w = true) (h' : row'.holds w = true) :
    row.pattern &&& row'.mask = row'.pattern &&& row.mask := by
  have hp : w &&& row.mask = row.pattern := eq_of_beq h
  have hp' : w &&& row'.mask = row'.pattern := eq_of_beq h'
  rw [← hp, ← hp']
  ac_rfl

/-- No two rows agree on the bits that both fix. -/
theorem eq_of_patterns_meet : ∀ row ∈ opcodeTable, ∀ row' ∈ opcodeTable,
    row.pattern &&& row'.mask = row'.pattern &&& row.mask → row = row' := by decide

theorem eq_of_mnemonic_eq : ∀ row ∈ opcodeTable, ∀ row' ∈ opcodeTable,
    row.mnemonic = row'.mnemonic → row = row' := by decide

/-- No word is the instruction of two rows. -/
theorem row_eq_of_holds {row row' : OpcodeRow} (hrow : row ∈ opcodeTable) (hrow' : row' ∈ opcodeTable)
    (h : row.holds w = true) (h' : row'.holds w = true) : row = row' :=
  eq_of_patterns_meet row hrow row' hrow' (patterns_meet h h')

/-- A word that decodes is a word of the row with the mnemonic of its instruction. -/
theorem exists_row_of_decode (h : decode w = some i) :
    ∃ row ∈ opcodeTable, row.mnemonic = mnemonicOf i ∧ row.holds w = true := by
  have hfits := fits_of_decode h
  have hrow := rowFits i (wellFormed_of_fits hfits)
  rwa [encode_of_fits hfits] at hrow

/-- A field that the mask keeps whole is the pattern's field in every word of the row. -/
theorem extract_of_holds {row : OpcodeRow} {start len : Nat} (h : row.holds w = true)
    (hmask : row.mask.extractLsb' start len = BitVec.allOnes len) :
    w.extractLsb' start len = row.pattern.extractLsb' start len := by
  have hmasked : w &&& row.mask = row.pattern := eq_of_beq h
  rw [← hmasked, BitVec.extractLsb'_and, hmask, BitVec.and_allOnes]

theorem opOf_of_holds {row : OpcodeRow} (h : row.holds w = true) (hmask : opOf row.mask = 0xF) :
    opOf w = opOf row.pattern := extract_of_holds h hmask

theorem nOf_of_holds {row : OpcodeRow} (h : row.holds w = true) (hmask : nOf row.mask = 0xF) :
    nOf w = nOf row.pattern := extract_of_holds h hmask

theorem nnOf_of_holds {row : OpcodeRow} (h : row.holds w = true) (hmask : nnOf row.mask = 0xFF) :
    nnOf w = nnOf row.pattern := extract_of_holds h hmask

theorem eq_of_holds {row : OpcodeRow} (h : row.holds w = true) (hmask : row.mask = 0xFFFF) : w = row.pattern := by
  have hmasked : w &&& row.mask = row.pattern := eq_of_beq h
  rw [← hmasked, hmask]
  exact BitVec.and_allOnes.symm

/-- The words of a row decode to an instruction with the row's mnemonic. -/
def RowDecodes (row : OpcodeRow) : Prop :=
  ∀ w, row.holds w = true → ∃ i, decode w = some i ∧ mnemonicOf i = row.mnemonic

theorem rowDecodes_low : ∀ row ∈ opcodeRowsLow, RowDecodes row := by
  simp only [opcodeRowsLow, List.forall_mem_cons]
  exact ⟨
    fun w h => ⟨.cls, decode_of_fits (eq_of_holds h rfl), rfl⟩,
    fun w h => ⟨.ret, decode_of_fits (eq_of_holds h rfl), rfl⟩,
    fun w h => ⟨.jp _, decode_of_fits ⟨opOf_of_holds h rfl, rfl⟩, rfl⟩,
    fun w h => ⟨.call _, decode_of_fits ⟨opOf_of_holds h rfl, rfl⟩, rfl⟩,
    fun w h => ⟨.seqi _ _, decode_of_fits ⟨opOf_of_holds h rfl, rfl, rfl⟩, rfl⟩,
    fun w h => ⟨.snei _ _, decode_of_fits ⟨opOf_of_holds h rfl, rfl, rfl⟩, rfl⟩,
    fun w h => ⟨.seq _ _, decode_of_fits ⟨opOf_of_holds h rfl, nOf_of_holds h rfl, rfl, rfl⟩, rfl⟩,
    fun w h => ⟨.ldi _ _, decode_of_fits ⟨opOf_of_holds h rfl, rfl, rfl⟩, rfl⟩,
    fun w h => ⟨.addi _ _, decode_of_fits ⟨opOf_of_holds h rfl, rfl, rfl⟩, rfl⟩,
    nofun⟩

theorem rowDecodes_middle : ∀ row ∈ opcodeRowsMiddle, RowDecodes row := by
  simp only [opcodeRowsMiddle, List.forall_mem_cons]
  exact ⟨
    fun w h => ⟨.mov _ _, decode_of_fits ⟨opOf_of_holds h rfl, nOf_of_holds h rfl, rfl, rfl⟩, rfl⟩,
    fun w h => ⟨.or _ _, decode_of_fits ⟨opOf_of_holds h rfl, nOf_of_holds h rfl, rfl, rfl⟩, rfl⟩,
    fun w h => ⟨.and _ _, decode_of_fits ⟨opOf_of_holds h rfl, nOf_of_holds h rfl, rfl, rfl⟩, rfl⟩,
    fun w h => ⟨.xor _ _, decode_of_fits ⟨opOf_of_holds h rfl, nOf_of_holds h rfl, rfl, rfl⟩, rfl⟩,
    fun w h => ⟨.add _ _, decode_of_fits ⟨opOf_of_holds h rfl, nOf_of_holds h rfl, rfl, rfl⟩, rfl⟩,
    fun w h => ⟨.sub _ _, decode_of_fits ⟨opOf_of_holds h rfl, nOf_of_holds h rfl, rfl, rfl⟩, rfl⟩,
    fun w h => ⟨.shr _ _, decode_of_fits ⟨opOf_of_holds h rfl, nOf_of_holds h rfl, rfl, rfl⟩, rfl⟩,
    fun w h => ⟨.subn _ _, decode_of_fits ⟨opOf_of_holds h rfl, nOf_of_holds h rfl, rfl, rfl⟩, rfl⟩,
    fun w h => ⟨.shl _ _, decode_of_fits ⟨opOf_of_holds h rfl, nOf_of_holds h rfl, rfl, rfl⟩, rfl⟩,
    fun w h => ⟨.sne _ _, decode_of_fits ⟨opOf_of_holds h rfl, nOf_of_holds h rfl, rfl, rfl⟩, rfl⟩,
    fun w h => ⟨.seti _, decode_of_fits ⟨opOf_of_holds h rfl, rfl⟩, rfl⟩,
    fun w h => ⟨.jpv0 _, decode_of_fits ⟨opOf_of_holds h rfl, rfl⟩, rfl⟩,
    fun w h => ⟨.rnd _ _, decode_of_fits ⟨opOf_of_holds h rfl, rfl, rfl⟩, rfl⟩,
    fun w h => ⟨.drw _ _ _, decode_of_fits ⟨opOf_of_holds h rfl, rfl, rfl, rfl⟩, rfl⟩,
    nofun⟩

theorem rowDecodes_high : ∀ row ∈ opcodeRowsHigh, RowDecodes row := by
  simp only [opcodeRowsHigh, List.forall_mem_cons]
  exact ⟨
    fun w h => ⟨.skp _, decode_of_fits ⟨opOf_of_holds h rfl, nnOf_of_holds h rfl, rfl⟩, rfl⟩,
    fun w h => ⟨.sknp _, decode_of_fits ⟨opOf_of_holds h rfl, nnOf_of_holds h rfl, rfl⟩, rfl⟩,
    fun w h => ⟨.getdt _, decode_of_fits ⟨opOf_of_holds h rfl, nnOf_of_holds h rfl, rfl⟩, rfl⟩,
    fun w h => ⟨.waitk _, decode_of_fits ⟨opOf_of_holds h rfl, nnOf_of_holds h rfl, rfl⟩, rfl⟩,
    fun w h => ⟨.setdt _, decode_of_fits ⟨opOf_of_holds h rfl, nnOf_of_holds h rfl, rfl⟩, rfl⟩,
    fun w h => ⟨.setst _, decode_of_fits ⟨opOf_of_holds h rfl, nnOf_of_holds h rfl, rfl⟩, rfl⟩,
    fun w h => ⟨.addix _, decode_of_fits ⟨opOf_of_holds h rfl, nnOf_of_holds h rfl, rfl⟩, rfl⟩,
    fun w h => ⟨.font _, decode_of_fits ⟨opOf_of_holds h rfl, nnOf_of_holds h rfl, rfl⟩, rfl⟩,
    fun w h => ⟨.bcd _, decode_of_fits ⟨opOf_of_holds h rfl, nnOf_of_holds h rfl, rfl⟩, rfl⟩,
    fun w h => ⟨.store _, decode_of_fits ⟨opOf_of_holds h rfl, nnOf_of_holds h rfl, rfl⟩, rfl⟩,
    fun w h => ⟨.load _, decode_of_fits ⟨opOf_of_holds h rfl, nnOf_of_holds h rfl, rfl⟩, rfl⟩,
    fun w h => ⟨.savef _, decode_of_fits ⟨opOf_of_holds h rfl, nnOf_of_holds h rfl, rfl⟩, rfl⟩,
    fun w h => ⟨.loadf _, decode_of_fits ⟨opOf_of_holds h rfl, nnOf_of_holds h rfl, rfl⟩, rfl⟩,
    nofun⟩

theorem rowDecodes {row : OpcodeRow} (hrow : row ∈ opcodeTable) : RowDecodes row := by
  obtain (hlow | hmiddle) | hhigh := (List.mem_append.1 hrow).imp_left List.mem_append.1
  · exact rowDecodes_low row hlow
  · exact rowDecodes_middle row hmiddle
  · exact rowDecodes_high row hhigh

/-- Settles O8: a row's words decode to its instruction; and where a word decodes to an instruction with the row's
mnemonic, it is a word of the one row that bears this mnemonic. -/
theorem decodeAgreesWithTheOpcodeTable : Obligations.DecodeAgreesWithTheOpcodeTable := by
  unfold Obligations.DecodeAgreesWithTheOpcodeTable
  refine ⟨fun w row hrow => ⟨rowDecodes hrow w, ?_⟩, fun w row row' => row_eq_of_holds⟩
  rintro ⟨i, hdecode, hname⟩
  obtain ⟨row', hrow', hname', hholds⟩ := exists_row_of_decode hdecode
  rwa [eq_of_mnemonic_eq row hrow row' hrow' (hname.symm.trans hname'.symm)]

/-! ### The illegal words -/

theorem branch_eq_none {c : Prop} [Decidable c] {a : Instr} {b : Option Instr} :
    (if c then some a else b) = none ↔ ¬c ∧ b = none := by
  split <;> simp_all

theorem decodeFamily0_eq_none : decodeFamily0 w = none ↔ w ≠ 0x00E0 ∧ w ≠ 0x00EE := by
  simp [decodeFamily0, branch_eq_none]

/-- The nibbles that select no operation of family 8 (D2). -/
theorem unused_nibble_iff : ∀ n : BitVec 4,
    n ∉ [0x0#4, 0x1#4, 0x2#4, 0x3#4, 0x4#4, 0x5#4, 0x6#4, 0x7#4, 0xE#4] ↔
      n ∈ [0x8#4, 0x9#4, 0xA#4, 0xB#4, 0xC#4, 0xD#4, 0xF#4] := by decide

theorem decodeFamily8_eq_none :
    decodeFamily8 w = none ↔ nOf w ∈ [0x8#4, 0x9#4, 0xA#4, 0xB#4, 0xC#4, 0xD#4, 0xF#4] := by
  rw [← unused_nibble_iff]
  simp [decodeFamily8, branch_eq_none]

theorem decodeFamilyE_eq_none : decodeFamilyE w = none ↔ nnOf w ∉ [0x9E#8, 0xA1#8] := by
  simp [decodeFamilyE, branch_eq_none]

theorem decodeFamilyF_eq_none : decodeFamilyF w = none ↔ nnOf w ∉
    [0x07#8, 0x0A#8, 0x15#8, 0x18#8, 0x1E#8, 0x29#8, 0x33#8, 0x55#8, 0x65#8, 0x75#8, 0x85#8] := by
  simp [decodeFamilyF, branch_eq_none]

/-- The sixteen families. -/
theorem opOf_cases (w : InstrWord) : opOf w = 0x0 ∨ opOf w = 0x1 ∨ opOf w = 0x2 ∨ opOf w = 0x3 ∨ opOf w = 0x4 ∨
    opOf w = 0x5 ∨ opOf w = 0x6 ∨ opOf w = 0x7 ∨ opOf w = 0x8 ∨ opOf w = 0x9 ∨ opOf w = 0xA ∨ opOf w = 0xB ∨
    opOf w = 0xC ∨ opOf w = 0xD ∨ opOf w = 0xE ∨ opOf w = 0xF := by
  bv_omega

/-- In six families the second level of the decoder can have a word left over, in the other ten it has none. -/
theorem decode_eq_none_iff : decode w = none ↔
    (opOf w = 0x0 ∧ decodeFamily0 w = none) ∨ (opOf w = 0x5 ∧ nOf w ≠ 0x0) ∨
    (opOf w = 0x8 ∧ decodeFamily8 w = none) ∨ (opOf w = 0x9 ∧ nOf w ≠ 0x0) ∨
    (opOf w = 0xE ∧ decodeFamilyE w = none) ∨ (opOf w = 0xF ∧ decodeFamilyF w = none) := by
  obtain h | h | h | h | h | h | h | h | h | h | h | h | h | h | h | h := opOf_cases w <;> simp [decode, h]

/-- Settles O9: the words that the six families leave over. -/
theorem illegalWordsFamilyByFamily : Obligations.IllegalWordsFamilyByFamily := by
  unfold Obligations.IllegalWordsFamilyByFamily
  intro w
  rw [decode_eq_none_iff, decodeFamily0_eq_none, decodeFamily8_eq_none, decodeFamilyE_eq_none, decodeFamilyF_eq_none]
  rfl

/-! ### Sample words -/

/-- Settles O10: each word is decoded by evaluation. -/
theorem sampleWordsDecode : Obligations.SampleWordsDecode := by
  unfold Obligations.SampleWordsDecode
  decide

end Sys2Proof
end

section
/-!
PROOFS. Steps and schedules: the decoded instruction, the gated step, the failed step and the schedules after it, and
the key wait over any schedule without a press (40_step_dispatch.md R90 to R96, 45_keys_timers.md R148).
-/

namespace Sys2Proof.Machine

variable {s t u : State} {i : Instr} {e : Fault}

/-! ### A step that runs an instruction, and one that is gated -/

theorem step_legal (hp : s.poisoned = false) (hw : s.wait = none) (hd : decode (fetch16 s s.pc) = some i) :
    step s = exec i s := (step_ready hp hw).trans (runWord_legal hd s)

/-- Settles O11: the fetched word is the byte at `pc` above the byte at `pc + 1`. -/
theorem stepRunsTheDecodedInstruction : Obligations.StepRunsTheDecodedInstruction := by
  unfold Obligations.StepRunsTheDecodedInstruction
  exact fun s i hp hw hd => step_legal hp hw hd

/-- Settles O13: the wait is looked at before the fetch. -/
theorem gatedStepDoesNothing : Obligations.GatedStepDoesNothing := by
  unfold Obligations.GatedStepDoesNothing
  exact fun s r hp hw => ⟨step_waiting hp hw, stepResponse_next (step_waiting hp hw)⟩

/-! ### A failed step fails again -/

/-- Whether an instruction fails depends on the stack pointer alone (R100, R102, R157). -/
theorem exec_fault_of_sp_eq (hsp : u.sp = s.sp) (h : exec i s = .fault e) : exec i u = .fault e := by
  cases i with
  | ret =>
    obtain ⟨_, hnext⟩ | ⟨hempty, hfault⟩ := popAndJump_cases s
    · cases hnext.symm.trans h
    · cases hfault.symm.trans h
      exact popAndJump_empty (hsp ▸ hempty)
  | call nnn =>
    obtain ⟨_, hnext⟩ | ⟨hfull, hfault⟩ := pushAndJump_cases s (nextPc s) nnn
    · cases hnext.symm.trans h
    · cases hfault.symm.trans h
      exact pushAndJump_full (hsp ▸ hfull) _ _
  | savef x =>
    obtain hx | hx := Nat.lt_or_ge 7 x.val
    · exact (exec_savef_of_gt hx u).trans ((exec_savef_of_gt hx s).symm.trans h)
    · cases (exec_savef_of_le hx s).symm.trans h
  | loadf x =>
    obtain hx | hx := Nat.lt_or_ge 7 x.val
    · exact (exec_loadf_of_gt hx u).trans ((exec_loadf_of_gt hx s).symm.trans h)
    · cases (exec_loadf_of_le hx s).symm.trans h
  | _ => cases h

/-- A failed step goes on failing whatever the host's own parts become. -/
theorem step_fault_of_keepsAllBut (h : step s = .fault e) (hk : KeepsAllBut hostParts s u) : step u = .fault e := by
  obtain ⟨hp, hw⟩ := ready_of_step_fault h
  have hpu : u.poisoned = false := (hk .poisoned (by decide)).trans hp
  have hwu : u.wait = none := (hk .wait (by decide)).trans hw
  have hword : fetch16 u u.pc = fetch16 s s.pc := fetch16_pc_eq_of_keepsAllBut hk (by decide) (by decide)
  obtain ⟨-, ⟨rfl, hd⟩ | ⟨i, hd, hexec⟩⟩ := step_fault_cases h
  · exact step_illegal hpu hwu (hword ▸ hd)
  · exact (step_legal hpu hwu (hword ▸ hd)).trans (exec_fault_of_sp_eq (hk .sp (by decide)) hexec)

/-- Settles O14: the host's own parts are all that a schedule without `init` changes after a failed step, and the
failure does not depend on them. -/
theorem failedStepRepeatsUntilInit : Obligations.FailedStepRepeatsUntilInit := by
  unfold Obligations.FailedStepRepeatsUntilInit
  refine ⟨fun s t h => stepResponse_next h, fun s r hp hw => stepResponse_next (step_waiting hp hw),
    fun s e h => ⟨stepResponse_fault h, fun ops hops => ?repeats⟩⟩
  case repeats =>
    have hstable : ∀ u, KeepsAllBut hostParts s u → step u = .fault e := fun u => step_fault_of_keepsAllBut h
    obtain ⟨t, hrun, hst⟩ := runOps_of_stable_fault hstable ops hops (.refl _ s)
    exact ⟨t, hrun, stepResponse_fault (hstable t hst)⟩

/-! ### A key wait -/

/-- A `set_keys` that presents no press is a write of the latch. -/
theorem setKeys_of_no_press {mask : KeyMask} (h : newlyPressed s mask = 0) : setKeys mask s = s.setKeyLatch mask := by
  obtain ⟨r, k, -, hk, -⟩ | ⟨-, hset⟩ := setKeys_cases mask s
  · rw [lowestKey_none.2 h] at hk; cases hk
  · exact hset

/-- One operation of a schedule without a press, on a block that waits. -/
theorem transact_of_waiting {r : Reg} (hp : s.poisoned = false) (hw : s.wait = some r) {op : Op} {rest : List Op}
    (h : NoPress s.keys (op :: rest)) :
    ∃ a, transact op s = .ok a ∧ KeepsAllBut hostParts s a.state ∧ NoPress a.state.keys rest := by
  cases op with
  | init program seed initFlags => cases h.1
  | step => exact ⟨_, stepResponse_next (step_waiting hp hw), .refl _ s, h.2⟩
  | tick => exact ⟨_, harmless_ready hp tick, (tick_keepsAllBut s).mono (by decide), h.2⟩
  | setKeys mask =>
    obtain ⟨hpress, hrest⟩ := h
    refine ⟨_, harmless_ready hp _, ?_⟩
    rw [setKeys_of_no_press hpress]
    exact ⟨(setKeyLatch_keepsAllBut s mask).mono (by decide), hrest⟩
  | clearDisplayDirty =>
    exact ⟨_, harmless_ready hp _, (clearDisplayDirty_keepsAllBut s).mono (by decide), h.2⟩
  | clearFlagsDirty => exact ⟨_, harmless_ready hp _, (clearFlagsDirty_keepsAllBut s).mono (by decide), h.2⟩

/-- A schedule without a press changes the host's own parts alone. -/
theorem runOps_of_waiting {r : Reg} (ops : List Op) (hp : s.poisoned = false) (hw : s.wait = some r)
    (h : NoPress s.keys ops) : ∃ t, runOps ops s = .ok t ∧ KeepsAllBut hostParts s t := by
  induction ops generalizing s with
  | nil => exact ⟨s, rfl, .refl _ s⟩
  | cons op rest ih =>
    obtain ⟨a, ha, hkeep, hrest⟩ := transact_of_waiting hp hw h
    obtain ⟨t, hrun, hkeep'⟩ :=
      ih ((hkeep .poisoned (by decide)).trans hp) ((hkeep .wait (by decide)).trans hw) hrest
    exact ⟨t, by rw [runOps, ha]; exact hrun, hkeep.trans hkeep'⟩

/-- Settles O15: the wait is none of the host's own parts. -/
theorem keyWaitEndsOnlyByPress : Obligations.KeyWaitEndsOnlyByPress := by
  unfold Obligations.KeyWaitEndsOnlyByPress
  intro s r ops hp hw h
  obtain ⟨t, hrun, hkeep⟩ := runOps_of_waiting ops hp hw h
  exact ⟨t, hrun, (hkeep .wait (by decide)).trans hw, hkeep⟩

end Sys2Proof.Machine
end

section
/-!
PROOFS. The invariant: reset meets it, every instruction, step and host operation keeps it
(10_state.md R35, R39; 20_memory.md R50, R51).
-/

namespace Sys2Proof.Machine

variable {s t : State} {i : Instr}

/-! ### Reset -/

theorem defaultCfg_wellFormed : defaultCfg.wellFormed = true := by decide

/-- Settles O1: memory after reset lists no cell, and the default font ends below 0x200. -/
theorem resetMeetsInvariant : Obligations.ResetMeetsInvariant := by
  unfold Obligations.ResetMeetsInvariant
  exact ⟨Memory.wf_nil, defaultCfg_wellFormed⟩

/-! ### Instructions and steps -/

/-- Every instruction keeps the canonical form: the two that write memory write byte by byte. -/
theorem exec_keepsCanonicalMemory (hwf : Memory.wf s.cfg s.mem) (h : exec i s = .next t) :
    Memory.wf t.cfg t.mem := by
  cases i with
  | bcd x => cases h; exact State.wf_writeByte (State.wf_writeByte (State.wf_writeByte hwf _ _) _ _) _ _
  | store x => cases h; simpa using wf_storeRegs hwf (x.val + 1)
  | load x => cases h; simpa using hwf
  | ret => obtain ⟨k, -, rfl⟩ := exec_ret_next h; exact hwf
  | call nnn => obtain ⟨k, -, rfl⟩ := exec_call_next h; exact hwf
  | savef x => obtain ⟨-, rfl⟩ := exec_savef_next h; simpa using hwf
  | loadf x => obtain ⟨-, rfl⟩ := exec_loadf_next h; simpa using hwf
  | _ => cases h; exact hwf

theorem exec_cfg (h : exec i s = .next t) : t.cfg = s.cfg :=
  exec_keepsAllBut h .cfg (by cases i <;> simp [changedParts])

theorem exec_poisoned (h : exec i s = .next t) : t.poisoned = s.poisoned :=
  exec_keepsAllBut h .poisoned (by cases i <;> simp [changedParts])

theorem State.Inv.of_cfg_eq (h : s.Inv) (hmem : Memory.wf t.cfg t.mem) (hcfg : t.cfg = s.cfg) : t.Inv :=
  ⟨hmem, hcfg ▸ h.config⟩

theorem exec_keepsInv (hinv : s.Inv) (h : exec i s = .next t) : t.Inv :=
  hinv.of_cfg_eq (exec_keepsCanonicalMemory hinv.memory h) (exec_cfg h)

/-- Settles O16: a step that answers a next state was gated or executed an instruction. -/
theorem stepKeepsTheInvariant : Obligations.StepKeepsTheInvariant := by
  unfold Obligations.StepKeepsTheInvariant
  intro s t hinv h
  obtain ⟨hp, ⟨-, rfl⟩ | ⟨-, i, -, hexec⟩⟩ := step_next_cases h
  · exact ⟨hinv, rfl, hp⟩
  · exact ⟨exec_keepsInv hinv hexec, exec_cfg hexec, (exec_poisoned hexec).trans hp⟩

/-! ### Host operations and schedules -/

theorem stepResponse_keepsInv {r : Response} (hinv : s.Inv) (h : stepResponse s = .ok r) :
    r.state.Inv ∧ r.state.cfg = s.cfg := by
  obtain ⟨hstep, -⟩ | ⟨e, -, hsame, -⟩ := stepResponse_cases h
  · obtain ⟨hinv', hcfg, -⟩ := stepKeepsTheInvariant s r.state hinv hstep
    exact ⟨hinv', hcfg⟩
  · rw [hsame]; exact ⟨hinv, rfl⟩

/-- An `init`, successful or not, leaves memory in canonical form and the configuration as it was. -/
theorem init_keepsInv (hinv : s.Inv) (program : List Byte) (seed : Seed) (f : PackedFlags) :
    (init program seed f s).state.Inv ∧ (init program seed f s).state.cfg = s.cfg := by
  obtain hlong | hfits := Nat.lt_or_ge 3584 program.length
  · rw [init_tooLong hlong]
    exact ⟨⟨wf_ofCells _ _, hinv.config⟩, rfl⟩
  · rw [init_fits hfits]
    exact ⟨⟨wf_loadProgram program Memory.wf_nil (by omega), hinv.config⟩, rfl⟩

theorem setKeys_mem_cfg (mask : KeyMask) (s : State) :
    (setKeys mask s).mem = s.mem ∧ (setKeys mask s).cfg = s.cfg := by
  obtain ⟨r, k, -, -, hset⟩ | ⟨-, hset⟩ := setKeys_cases mask s <;> rw [hset] <;> exact ⟨rfl, rfl⟩

theorem transact_keepsInv {op : Op} {r : Response} (hinv : s.Inv) (h : transact op s = .ok r) :
    r.state.Inv ∧ r.state.cfg = s.cfg := by
  cases op with
  | init program seed initFlags => cases h; exact init_keepsInv hinv program seed initFlags
  | step => exact stepResponse_keepsInv hinv h
  | tick | clearDisplayDirty | clearFlagsDirty =>
    rw [state_of_harmless h]
    exact ⟨hinv.of_cfg_eq hinv.memory rfl, rfl⟩
  | setKeys mask =>
    obtain ⟨hmem, hcfg⟩ := setKeys_mem_cfg mask s
    rw [state_of_harmless h]
    exact ⟨hinv.of_cfg_eq (hmem ▸ hcfg ▸ hinv.memory) hcfg, hcfg⟩

/-- Settles O17, by induction on the schedule. -/
theorem operationsKeepTheInvariant : Obligations.OperationsKeepTheInvariant := by
  unfold Obligations.OperationsKeepTheInvariant
  intro ops
  induction ops with
  | nil => rintro s t hinv ⟨⟩; exact ⟨hinv, rfl⟩
  | cons op rest ih =>
    intro s t hinv hrun
    rw [runOps] at hrun
    split at hrun
    · next a ha =>
      obtain ⟨hinv', hcfg'⟩ := transact_keepsInv hinv ha
      obtain ⟨hinvT, hcfgT⟩ := ih a.state t hinv' hrun
      exact ⟨hinvT, hcfgT.trans hcfg'⟩
    · cases hrun

end Sys2Proof.Machine
end

section
/-!
PROOFS. `init`: the state a successful one leaves, piece by piece and cell by cell, and the poisoned block
(70_reset_and_hazards.md R200 to R211, 10_state.md R35 to R39).
-/

namespace Sys2Proof.Machine

variable {c : Cfg} {seed : Seed} {f : PackedFlags} {program : List Byte}

/-- The state after a successful `init` (R39). -/
def initialState (c : Cfg) (seed : Seed) (f : PackedFlags) (program : List Byte) : State :=
  { State.afterReset c seed with mem := loadProgram c [] 0x200 program, flag := unpackFlags f }

theorem transact_init_fits (h : program.length ≤ 3584) (seed : Seed) (f : PackedFlags) (s : State) :
    transact (.init program seed f) s = .ok { state := initialState s.cfg seed f program, status := .ok } :=
  congrArg Except.ok (init_fits h seed f s)

theorem transact_init_tooLong (h : 3584 < program.length) (seed : Seed) (f : PackedFlags) (s : State) :
    transact (.init program seed f) s =
      .ok { state := poisonedBlock s.cfg (unspecifiedAfterInit program seed f s), status := .fail .programTooLong } :=
  congrArg Except.ok (init_tooLong h seed f s)

/-! ### The arrays of the initial state -/

theorem reg_initialState (r : Reg) : (initialState c seed f program).reg r = 0 := by
  simp [State.reg, initialState, State.afterReset, Vector.get_eq_getElem]

theorem stackEntry_initialState (k : Fin 16) : (initialState c seed f program).stackEntry k = 0 := by
  simp [State.stackEntry, initialState, State.afterReset, Vector.get_eq_getElem]

theorem pixel_initialState (px : Fin 64) (py : Fin 32) : pixel (initialState c seed f program).fb px py = false :=
  pixel_clearDisplay px py

/-! ### The memory of the initial state -/

/-- The program image from 0x200 on, and the reset contents elsewhere (R200). -/
theorem readByte_initialState (h : program.length ≤ 3584) (a : Addr) :
    (initialState c seed f program).readByte a =
      if 0x200 ≤ a.toNat then (program[a.toNat - 0x200]?).getD (resetByte c a.toNat) else resetByte c a.toNat :=
  read_loadProgram program Memory.wf_nil (by omega) a.toNat

theorem readByte_initialState_program (h : program.length ≤ 3584) {i : Nat} (hi : i < program.length) :
    (initialState c seed f program).readByte (BitVec.ofNat 12 (0x200 + i)) = program[i] := by
  have haddr : (BitVec.ofNat 12 (0x200 + i)).toNat = 0x200 + i := by
    rw [BitVec.toNat_ofNat]
    omega
  rw [readByte_initialState h, haddr, if_pos (by omega), Nat.add_sub_cancel_left, List.getElem?_eq_getElem hi]
  rfl

/-- Outside the program image memory holds the reset contents: the load never wraps below 0x200 (R201). -/
theorem readByte_initialState_outside (h : program.length ≤ 3584) {a : Addr}
    (ha : a.toNat < 0x200 ∨ 0x200 + program.length ≤ a.toNat) :
    (initialState c seed f program).readByte a = resetByte c a.toNat := by
  rw [readByte_initialState h]
  split
  · rw [List.getElem?_eq_none (by omega)]
    rfl
  · rfl

theorem resetByte_font {a : Nat} (k : Fin 80) (ha : a = c.fontBase.toNat + k.val) :
    resetByte c a = c.fontData.get k := by
  have hoffset : a - c.fontBase.toNat = k.val := by omega
  rw [resetByte, dif_pos ⟨by omega, by omega⟩]
  congr 1
  exact Fin.ext hoffset

theorem resetByte_outside_font {a : Nat} (ha : a < c.fontBase.toNat ∨ c.fontBase.toNat + 80 ≤ a) :
    resetByte c a = 0 := by
  rw [resetByte, dif_neg (by omega)]

theorem fontBase_of_wellFormed (h : c.wellFormed = true) : c.fontBase.toNat + 80 ≤ 0x200 := of_decide_eq_true h

/-- The font lies below the program area, so a well-formed configuration's glyphs are all in memory (R7, R36). -/
theorem readByte_initialState_font (hc : c.wellFormed = true) (h : program.length ≤ 3584) (k : Fin 80) :
    (initialState c seed f program).readByte (c.fontBase + BitVec.ofNat 12 k.val) = c.fontData.get k := by
  have hbase := fontBase_of_wellFormed hc
  have haddr : (c.fontBase + BitVec.ofNat 12 k.val).toNat = c.fontBase.toNat + k.val := by
    rw [BitVec.toNat_add, BitVec.toNat_ofNat]
    omega
  rw [readByte_initialState_outside h (by omega), resetByte_font k haddr]

/-! ### The obligations -/

/-- Settles O2: the initial state is written out field by field; memory is the loaded image over the reset contents. -/
theorem initSetsEveryPieceOfState : Obligations.InitSetsEveryPieceOfState := by
  unfold Obligations.InitSetsEveryPieceOfState
  intro s program seed f hlen hc
  refine ⟨_, transact_init_fits hlen seed f s, reg_initialState, rfl, rfl, rfl, stackEntry_initialState, rfl, rfl,
    pixel_initialState, rfl, ?flags, rfl, rfl, rfl, rfl, rfl, rfl, ?program, ?font, ?zeros⟩
  case flags => exact flagByte_unpackFlags (initialState s.cfg seed f program) f
  case program => exact fun i hi => readByte_initialState_program hlen hi
  case font => exact readByte_initialState_font hc hlen
  case zeros =>
    intro a hprogram hfont
    rw [readByte_initialState_outside hlen hprogram, resetByte_outside_font hfont]

/-- After an empty image the two bytes at `pc` are 0 (R58). -/
theorem fetch16_initialState_nil (hc : c.wellFormed = true) :
    fetch16 (initialState c seed f []) (initialState c seed f []).pc = 0x0000 := by
  have hbase := fontBase_of_wellFormed hc
  have hzero : ∀ a : Addr, 0x200 ≤ a.toNat → (initialState c seed f []).readByte a = 0 := fun a ha => by
    rw [readByte_initialState_outside (program := []) (Nat.zero_le _) (.inr ha), resetByte_outside_font (by omega)]
  have hpc : (initialState c seed f []).pc = 0x200 := rfl
  rw [fetch16, hpc, hzero _ (by decide), hzero _ (by decide)]
  rfl

/-- Settles O3: `init` compares the length with 3584 and with nothing else; the word 0x0000 is illegal. -/
theorem programTooLongAbove3584Bytes : Obligations.ProgramTooLongAbove3584Bytes := by
  unfold Obligations.ProgramTooLongAbove3584Bytes
  intro s seed f
  refine ⟨fun program hlong => ⟨_, transact_init_tooLong hlong seed f s⟩, fun program hlen => ?loaded, fun hc => ?empty⟩
  case loaded =>
    exact ⟨_, transact_init_fits hlen seed f s, fun i hi => readByte_initialState_program hlen hi,
      fun a ha => readByte_initialState_outside hlen (.inl ha)⟩
  case empty =>
    have hlen : ([] : List Byte).length ≤ 3584 := Nat.zero_le _
    have hbase := fontBase_of_wellFormed hc
    have hword := fetch16_initialState_nil (seed := seed) (f := f) hc
    refine ⟨_, transact_init_fits hlen seed f s, fun a ha => ?zero, hword, step_illegal rfl rfl ?illegal⟩
    case zero =>
      rw [readByte_initialState_outside hlen (by simp; omega), resetByte_outside_font (.inr ha)]
    case illegal => rw [hword]; decide

/-- Settles O4: the initial state is made of the arguments and the configuration. -/
theorem initForgetsEarlierState : Obligations.InitForgetsEarlierState := by
  unfold Obligations.InitForgetsEarlierState
  intro s s' program seed f hcfg
  obtain hlong | hfits := Nat.lt_or_ge 3584 program.length
  · rw [init_tooLong hlong, init_tooLong hlong]
    exact ⟨rfl, fun hfits => absurd hlong (Nat.not_lt.2 hfits)⟩
  · rw [init_fits hfits, init_fits hfits, hcfg]
    exact ⟨rfl, fun _ => ⟨rfl, rfl⟩⟩

/-- A poisoned block refuses every operation but `init` (R203). -/
theorem transact_poisoned {s : State} (hp : s.poisoned = true) {op : Op} (hop : op.isInit = false) :
    transact op s = .error .poisoned := by
  cases op with
  | init program seed initFlags => cases hop
  | step => simp [transact, stepResponse, step_poisoned hp]
  | tick | setKeys mask | clearDisplayDirty | clearFlagsDirty => exact harmless_poisoned hp _

theorem observe_poisoned {s : State} (hp : s.poisoned = true) : observe s = .error .poisoned := by
  simp [observe, hp]

/-- Settles O5: the condition is set by a failed `init` and at power-on, and only a successful `init` lifts it. -/
theorem poisonedBlockRefusesAllButInit : Obligations.PoisonedBlockRefusesAllButInit := by
  unfold Obligations.PoisonedBlockRefusesAllButInit
  refine ⟨fun s program seed f hlong => ?failed, fun c => rfl, fun s hp => ⟨step_poisoned hp, observe_poisoned hp,
    fun op => transact_poisoned hp, fun program seed f hlen => ⟨_, transact_init_fits hlen seed f s, rfl⟩⟩⟩
  case failed => rw [init_tooLong hlong]; rfl

end Sys2Proof.Machine
end

section
/-!
PROOFS. What an instruction leaves in `pc`, in the registers and in the dirty bits, instruction by instruction
(40_step_dispatch.md R95; 10_state.md R21, R22, R29, R31).
-/

namespace Sys2Proof.Machine

variable {s t : State} {i : Instr}

/-! ### The program counter -/

theorem skipIf_not_pc (s : State) (c : Bool) :
    (s.skipIf (!c)).pc = if c = true then s.pc + 2 else s.pc + 4 := by
  rw [State.skipIf_pc]
  cases c <;> rfl

theorem skipIf_bne_pc_of_ne (s : State) (a b : Byte) :
    (s.skipIf (a != b)).pc = if a ≠ b then s.pc + 4 else s.pc + 2 := by
  rw [skipIf_bne_pc, ite_not]

/-- Settles O19: a jump, call or return sets `pc` to its target, a skip to one of two addresses, and every other
instruction ends with an advance. -/
theorem programCounterAfterEveryInstruction : Obligations.ProgramCounterAfterEveryInstruction := by
  unfold Obligations.ProgramCounterAfterEveryInstruction
  intro i s t h
  cases i with
  | ret => obtain ⟨k, hk, rfl⟩ := exec_ret_next h; exact ⟨k, hk, rfl⟩
  | call nnn => obtain ⟨k, -, rfl⟩ := exec_call_next h; rfl
  | seqi x nn => cases h; exact skipIf_beq_pc s _ _
  | seq x y => cases h; exact skipIf_beq_pc s _ _
  | snei x nn => cases h; exact skipIf_bne_pc_of_ne s _ _
  | sne x y => cases h; exact skipIf_bne_pc_of_ne s _ _
  | sknp x => cases h; exact skipIf_not_pc s _
  | store x => cases h; exact congrArg (· + 2) (storeRegs_pc s _)
  | load x => cases h; exact congrArg (· + 2) (loadRegs_pc s _)
  | savef x => obtain ⟨-, rfl⟩ := exec_savef_next h; exact congrArg (· + 2) (saveFlags_pc s _)
  | loadf x => obtain ⟨-, rfl⟩ := exec_loadf_next h; exact congrArg (· + 2) (loadFlags_pc s _)
  | _ => cases h; rfl

/-! ### The registers -/

theorem eq_of_reg_setReg_ne {x r : Reg} {v : Byte} (h : (s.setReg x v).reg r ≠ s.reg r) : r = x := by
  by_contra hr
  exact h (s.reg_setReg_of_ne hr v)

theorem eq_or_eq_of_reg_setResultAndFlag_ne {x r : Reg} {v : Byte} {f : Bool}
    (h : (s.setResultAndFlag x v f).reg r ≠ s.reg r) : r = x ∨ r = vf := by
  by_contra hr
  obtain ⟨hx, hvf⟩ := not_or.1 hr
  rw [State.reg_setResultAndFlag, if_neg hvf, if_neg hx] at h
  exact h rfl

theorem lt_of_reg_loadRegs_ne {n : Nat} (hn : n ≤ 16) {r : Reg} (h : (loadRegs n s).reg r ≠ s.reg r) : r.val < n := by
  by_contra hr
  rw [reg_loadRegs_self s hn, if_neg hr] at h
  exact h rfl

theorem lt_of_reg_loadFlags_ne {n : Nat} (hn : n ≤ 8) {r : Reg} (h : (loadFlags n s).reg r ≠ s.reg r) :
    r.val < n := by
  by_contra hr
  rw [reg_loadFlags_self s hn, if_neg hr] at h
  exact h rfl

/-- Settles O21: an instruction that is not named has no register in its frame. -/
theorem onlyNamedRegistersChange : Obligations.OnlyNamedRegistersChange := by
  unfold Obligations.OnlyNamedRegistersChange
  intro i s t r h hne
  cases i with
  | ldi | addi | rnd | mov | or | and | xor | getdt => cases h; exact eq_of_reg_setReg_ne hne
  | add | sub | shr | subn | shl => cases h; exact eq_or_eq_of_reg_setResultAndFlag_ne hne
  | drw x y n => cases h; exact eq_of_reg_setReg_ne hne
  | load x => cases h; exact Nat.le_of_lt_succ (lt_of_reg_loadRegs_ne x.isLt hne)
  | loadf x =>
    obtain ⟨hx, rfl⟩ := exec_loadf_next h
    exact Nat.le_of_lt_succ (lt_of_reg_loadFlags_ne (Nat.succ_le_succ hx) hne)
  | _ => exact hne (exec_keepsAllBut h .regs (by simp [changedParts]) r)

/-! ### The dirty bits -/

/-- The instructions that set the display dirty bit (R138, D10). -/
def marksDisplay : Instr → Bool
  | .cls | .drw _ _ _ => true
  | _ => false

/-- The instruction that sets the flags dirty bit (R155). -/
def marksFlags : Instr → Bool
  | .savef _ => true
  | _ => false

theorem marksDisplay_iff : marksDisplay i = true ↔ i = .cls ∨ ∃ x y n, i = .drw x y n := by
  cases i <;> simp [marksDisplay]

theorem marksFlags_iff : marksFlags i = true ↔ ∃ x, i = .savef x := by
  cases i <;> simp [marksFlags]

theorem exec_dispDirty (h : exec i s = .next t) : t.dispDirty = (marksDisplay i || s.dispDirty) := by
  cases i with
  | cls | drw => cases h; rfl
  | _ => exact exec_keepsAllBut h .dispDirty (by simp [changedParts])

theorem exec_flagsDirty (h : exec i s = .next t) : t.flagsDirty = (marksFlags i || s.flagsDirty) := by
  cases i with
  | savef x => obtain ⟨-, rfl⟩ := exec_savef_next h; rfl
  | _ => exact exec_keepsAllBut h .flagsDirty (by simp [changedParts])

/-- Only an instruction that sets the display dirty bit changes a pixel. -/
theorem marksDisplay_of_display_changed (h : exec i s = .next t) (hne : ¬Part.same .display s t) :
    marksDisplay i = true := by
  cases i with
  | cls | drw => rfl
  | _ => exact absurd (exec_keepsAllBut h .display (by simp [changedParts])) hne

/-- Only the instruction that sets the flags dirty bit changes a flag byte. -/
theorem marksFlags_of_flagStore_changed (h : exec i s = .next t) (hne : ¬Part.same .flagStore s t) :
    marksFlags i = true := by
  cases i with
  | savef => rfl
  | _ => exact absurd (exec_keepsAllBut h .flagStore (by simp [changedParts])) hne

/-- Settles O22: a dirty bit after an instruction is the old one or the instruction's mark. -/
theorem dirtyBitsAfterEveryInstruction : Obligations.DirtyBitsAfterEveryInstruction := by
  unfold Obligations.DirtyBitsAfterEveryInstruction
  intro i s t h
  rw [exec_dispDirty h, exec_flagsDirty h, Bool.or_eq_true, Bool.or_eq_true, marksDisplay_iff, marksFlags_iff]
  refine ⟨or_comm, or_comm, fun hne => ?pixel, fun hne => ?flagByte⟩
  case pixel => exact .inl (marksDisplay_iff.1 (marksDisplay_of_display_changed h hne))
  case flagByte => exact .inl (marksFlags_iff.1 (marksFlags_of_flagStore_changed h hne))

end Sys2Proof.Machine
end

section
/-!
PROOFS. Noninterference: no instruction reads the dirty bits, and none but `CXNN` reads the generator
(40_step_dispatch.md R98, 10_state.md R34).
-/

namespace Sys2Proof.Machine

variable {s t : State} {i : Instr} {g : Config.RngState} {b c : Bool}

/-! ### A state with another generator and other dirty bits -/

/-- `s` with the generator `g` and the dirty bits `b` and `c`: the three pieces that most instructions never read. -/
def withUnread (g : Config.RngState) (b c : Bool) (s : State) : State :=
  ((s.setRng g).setDispDirty b).setFlagsDirty c

theorem withUnread_rng (g : Config.RngState) (s : State) : withUnread g s.dispDirty s.flagsDirty s = s.setRng g := rfl

theorem withUnread_dirty (b c : Bool) (s : State) :
    withUnread s.rng b c s = (s.setDispDirty b).setFlagsDirty c := rfl

theorem dirtyBits_keepsAllBut (s : State) (b c : Bool) :
    KeepsAllBut [.dispDirty, .flagsDirty] s ((s.setDispDirty b).setFlagsDirty c) :=
  (setDispDirty_keepsAllBut s b).append (setFlagsDirty_keepsAllBut _ c)

/-! The loops of the instructions read none of the three. -/

theorem storeRegs_withUnread (n : Nat) (s : State) :
    storeRegs n (withUnread g b c s) = withUnread g b c (storeRegs n s) := by
  induction n with
  | zero => rfl
  | succ k ih => rw [storeRegs, ih]; rfl

theorem loadRegs_withUnread (n : Nat) (s : State) :
    loadRegs n (withUnread g b c s) = withUnread g b c (loadRegs n s) := by
  induction n with
  | zero => rfl
  | succ k ih => rw [loadRegs, ih]; rfl

theorem saveFlags_withUnread (n : Nat) (s : State) :
    saveFlags n (withUnread g b c s) = withUnread g b c (saveFlags n s) := by
  induction n with
  | zero => rfl
  | succ k ih => rw [saveFlags, ih]; rfl

theorem loadFlags_withUnread (n : Nat) (s : State) :
    loadFlags n (withUnread g b c s) = withUnread g b c (loadFlags n s) := by
  induction n with
  | zero => rfl
  | succ k ih => rw [loadFlags, ih]; rfl

theorem drawRows_withUnread (x0 y0 n : Nat) (k : Canvas) (s : State) :
    drawRows (withUnread g b c s) x0 y0 n k = drawRows s x0 y0 n k := by
  induction n with
  | zero => rfl
  | succ r ih => rw [drawRows, ih]; rfl

/-! ### Instructions -/

/-- An answer with its next state, if any, changed. -/
def mapNext (f : State → State) : Result → Result
  | .next t => .next (f t)
  | .fault e => .fault e
  | .refused r => .refused r

theorem agreeBut_mapNext {changed : List Part} {f : State → State} {a : Result}
    (h : ∀ t, a = .next t → KeepsAllBut changed t (f t)) : AgreeBut changed a (mapNext f a) := by
  cases a with
  | next t => exact h t rfl
  | fault e => rfl
  | refused r => rfl

theorem popAndJump_withUnread (s : State) :
    popAndJump (withUnread g b c s) = mapNext (withUnread g b c) (popAndJump s) := by
  obtain ⟨hused, hnext⟩ | ⟨hempty, hfault⟩ := popAndJump_cases s
  · rw [hnext, popAndJump_used (s := withUnread g b c s) hused]; rfl
  · rw [hfault, popAndJump_empty (s := withUnread g b c s) hempty]; rfl

theorem pushAndJump_withUnread (s : State) (r a : Addr) :
    pushAndJump (withUnread g b c s) r a = mapNext (withUnread g b c) (pushAndJump s r a) := by
  obtain ⟨hroom, hnext⟩ | ⟨hfull, hfault⟩ := pushAndJump_cases s r a
  · rw [hnext, pushAndJump_room (s := withUnread g b c s) hroom]; rfl
  · rw [hfault, pushAndJump_full (s := withUnread g b c s) hfull]; rfl

/-- An instruction other than `CXNN` hands the generator on and leaves each dirty bit as it is or sets it. -/
theorem exec_withUnread (hi : ∀ x nn, i ≠ .rnd x nn) (s : State) :
    exec i (withUnread g b c s) =
      mapNext (withUnread g (marksDisplay i || b) (marksFlags i || c)) (exec i s) := by
  cases i with
  | rnd x nn => exact absurd rfl (hi x nn)
  | ret => exact popAndJump_withUnread s
  | call nnn => exact pushAndJump_withUnread s (nextPc s) nnn
  | store x => rw [exec_store, exec_store, storeRegs_withUnread]; rfl
  | load x => rw [exec_load, exec_load, loadRegs_withUnread]; rfl
  | savef x =>
    obtain hx | hx := Nat.lt_or_ge 7 x.val
    · rw [exec_savef_of_gt hx, exec_savef_of_gt hx]; rfl
    · rw [exec_savef_of_le hx, exec_savef_of_le hx, saveFlags_withUnread]; rfl
  | loadf x =>
    obtain hx | hx := Nat.lt_or_ge 7 x.val
    · rw [exec_loadf_of_gt hx, exec_loadf_of_gt hx]; rfl
    · rw [exec_loadf_of_le hx, exec_loadf_of_le hx, loadFlags_withUnread]; rfl
  | drw x y n =>
    have hdraw : drawSprite x y n (withUnread g b c s) = drawSprite x y n s := drawRows_withUnread _ _ _ _ s
    simp only [exec, execDrw, hdraw]
    rfl
  | _ => rfl

theorem exec_rng (hi : ∀ x nn, i ≠ .rnd x nn) (h : exec i s = .next t) : t.rng = s.rng := by
  refine exec_keepsAllBut h .rng ?_
  cases i with
  | rnd x nn => exact absurd rfl (hi x nn)
  | _ => simp [changedParts]

/-- Settles O25: with another generator the answer is the same, with that generator in its next state. -/
theorem onlyRndConsumesTheGenerator : Obligations.OnlyRndConsumesTheGenerator := by
  unfold Obligations.OnlyRndConsumesTheGenerator
  intro i s g hi
  refine ⟨?agree, fun t h => exec_rng hi h⟩
  rw [← withUnread_rng, exec_withUnread hi]
  refine agreeBut_mapNext fun t h => ?_
  rw [← exec_dispDirty h, ← exec_flagsDirty h, withUnread_rng]
  exact setRng_keepsAllBut t g

/-- An instruction never reads the dirty bits. -/
theorem exec_agreeBut_dirtyBits (i : Instr) (s : State) (b c : Bool) :
    AgreeBut [.dispDirty, .flagsDirty] (exec i s) (exec i ((s.setDispDirty b).setFlagsDirty c)) := by
  by_cases hi : ∃ x nn, i = .rnd x nn
  · obtain ⟨x, nn, rfl⟩ := hi
    exact dirtyBits_keepsAllBut _ b c
  · have hi' : ∀ x nn, i ≠ .rnd x nn := fun x nn e => hi ⟨x, nn, e⟩
    rw [← withUnread_dirty, exec_withUnread hi']
    refine agreeBut_mapNext fun t h => ?_
    rw [← exec_rng hi' h, withUnread_dirty]
    exact dirtyBits_keepsAllBut t _ _

/-- Settles O24: neither does the gate, the fetch or the decoder. -/
theorem stepNeverReadsDirtyBits : Obligations.StepNeverReadsDirtyBits := by
  unfold Obligations.StepNeverReadsDirtyBits
  intro s b c
  obtain ⟨hp, hs⟩ | ⟨hp, ⟨r, hw⟩, hs⟩ | ⟨hp, hw, hd, hs⟩ | ⟨hp, hw, i, hd, hs⟩ := step_cases s <;> rw [hs]
  · rw [step_poisoned (s := (s.setDispDirty b).setFlagsDirty c) hp]; rfl
  · rw [step_waiting (s := (s.setDispDirty b).setFlagsDirty c) hp hw]; exact dirtyBits_keepsAllBut s b c
  · rw [step_illegal (s := (s.setDispDirty b).setFlagsDirty c) hp hw hd]; rfl
  · rw [step_legal (s := (s.setDispDirty b).setFlagsDirty c) hp hw hd]; exact exec_agreeBut_dirtyBits i s b c

end Sys2Proof.Machine
end

section
/-!
PROOFS. Calls and returns, and the jump with an offset (41_control_flow.md R100, R102, R107; 95_test_vectors.md S2).
-/

namespace Sys2Proof.Machine

variable {s t : State}

/-! ### One call, one return -/

theorem exec_ret_empty (h : s.sp.val = 0) : exec .ret s = .fault .badReturn := popAndJump_empty h

theorem exec_ret_used {k : Fin 16} (h : s.sp.val = k.val + 1) :
    exec .ret s = .next ((s.setSp k.castSucc).setPc (s.stackEntry k)) := by
  have hk : (⟨s.sp.val - 1, by omega⟩ : Fin 16) = k := Fin.ext (by simp [h])
  refine (popAndJump_used (by omega)).trans ?_
  rw [hk]
  congr 3
  exact Fin.ext (by simp [h])

theorem exec_call_full (h : s.sp.val = 16) (nnn : Addr) : exec (.call nnn) s = .fault .stackOverflow :=
  pushAndJump_full h _ _

theorem exec_call_room {k : Fin 16} (h : s.sp.val = k.val) (nnn : Addr) :
    exec (.call nnn) s = .next (((s.setStackEntry k (s.pc + 2)).setSp k.succ).setPc nnn) := by
  have hk : (⟨s.sp.val, by omega⟩ : Fin 16) = k := Fin.ext h
  refine (pushAndJump_room (by omega) _ _).trans ?_
  rw [hk]
  congr 3
  exact Fin.ext (by simp [h])

/-- Settles O26: the entry released is the one below the stack pointer. -/
theorem retPopsOrFailsWithBadReturn : Obligations.RetPopsOrFailsWithBadReturn := by
  unfold Obligations.RetPopsOrFailsWithBadReturn
  exact fun s => ⟨exec_ret_empty,
    fun k h => ⟨_, exec_ret_used h, rfl, rfl, (setSp_keepsAllBut s _).append (setPc_keepsAllBut _ _)⟩⟩

theorem call_keepsAllBut (s : State) (k : Fin 16) (a : Addr) (n : Fin 17) (target : Addr) :
    KeepsAllBut [.stack, .sp, .pc] s (((s.setStackEntry k a).setSp n).setPc target) :=
  (setStackEntry_keepsAllBut s k a).append ((setSp_keepsAllBut _ n).append (setPc_keepsAllBut _ target))

/-- Settles O27: the entry filled is the one at the stack pointer. -/
theorem callPushesOrFailsWithStackOverflow : Obligations.CallPushesOrFailsWithStackOverflow := by
  unfold Obligations.CallPushesOrFailsWithStackOverflow
  intro nnn s
  refine ⟨fun h => exec_call_full h nnn, fun k h => ⟨_, exec_call_room h nnn, ?pushed, ?others, rfl, rfl,
    call_keepsAllBut s k _ _ nnn⟩⟩
  case pushed => exact (s.stackEntry_setStackEntry k k _).trans (if_pos rfl)
  case others => exact fun j hj => (s.stackEntry_setStackEntry k j _).trans (if_neg hj)

/-! ### A call and a return -/

/-- Settles O28: the return releases the entry that the call filled, which no entry in use was. -/
theorem returnComesBackBehindTheCall : Obligations.ReturnComesBackBehindTheCall := by
  unfold Obligations.ReturnComesBackBehindTheCall
  intro nnn s hroom
  obtain ⟨k, hk⟩ : ∃ k : Fin 16, s.sp.val = k.val := ⟨⟨s.sp.val, hroom⟩, rfl⟩
  obtain ⟨t, ht, hpushed, hothers, hsp, -, hframe⟩ := (callPushesOrFailsWithStackOverflow nnn s).2 k hk
  obtain ⟨u, hu, huSp, huPc, huFrame⟩ := (retPopsOrFailsWithBadReturn t).2 k hsp
  have hsame : u.sp = s.sp := Fin.ext (huSp.trans hk.symm)
  have hentry : ∀ j : Fin 16, u.stackEntry j = t.stackEntry j := huFrame .stack (by decide)
  refine ⟨t, u, ht, hu, huPc.trans hpushed, hsame, fun j hj => ?inUse, fun p hp => ?frame⟩
  case inUse =>
    have hjk : j ≠ k := fun e => by omega
    rw [hentry, hothers j hjk]
  case frame =>
    by_cases hpsp : p = .sp
    · exact hpsp ▸ hsame
    · exact Part.same_trans (hframe p (by simp_all)) (huFrame p (by simp_all))

/-! ### Many calls -/

/-- Calls succeed, to whatever targets, as long as there is an entry for each. -/
theorem callAll_succeeds (targets : List Addr) (s : State) (hroom : s.sp.val + targets.length ≤ 16) :
    ∃ t, callAll targets s = .next t ∧ t.sp.val = s.sp.val + targets.length ∧
      KeepsAllBut [.stack, .sp, .pc] s t := by
  induction targets generalizing s with
  | nil => exact ⟨s, rfl, rfl, .refl _ s⟩
  | cons a rest ih =>
    rw [List.length_cons] at hroom
    obtain ⟨k, hk⟩ : ∃ k : Fin 16, s.sp.val = k.val := ⟨⟨s.sp.val, by omega⟩, rfl⟩
    obtain ⟨t, ht, -, -, hsp, -, hframe⟩ := (callPushesOrFailsWithStackOverflow a s).2 k hk
    obtain ⟨u, hu, huSp, huFrame⟩ := ih t (by omega)
    refine ⟨u, ?_, by rw [List.length_cons]; omega, hframe.trans huFrame⟩
    rw [callAll, ht]
    exact hu

/-- Settles O29: sixteen calls fill the sixteen entries. -/
theorem sixteenCallsSucceedTheSeventeenthFails : Obligations.SixteenCallsSucceedTheSeventeenthFails := by
  unfold Obligations.SixteenCallsSucceedTheSeventeenthFails
  intro s targets hempty hlen
  obtain ⟨t, ht, hsp, hframe⟩ := callAll_succeeds targets s (by omega)
  have hfull : t.sp.val = 16 := by omega
  exact ⟨t, ht, hfull, hframe, exec_call_full hfull⟩

/-! ### The jump with an offset -/

theorem zext12_toNat (v : Byte) : (zext12 v).toNat = v.toNat := BitVec.toNat_setWidth_of_le (by decide)

theorem add_zext12_toNat (a : Addr) (v : Byte) : (a + zext12 v).toNat = (a.toNat + v.toNat) % 4096 := by
  rw [BitVec.toNat_add, zext12_toNat]

/-- Settles O31: the sum of two 12-bit values is taken modulo 4096. -/
theorem jumpWithOffsetAddsV0 : Obligations.JumpWithOffsetAddsV0 := by
  unfold Obligations.JumpWithOffsetAddsV0
  exact fun nnn s => ⟨_, rfl, add_zext12_toNat nnn (s.reg 0), setPc_keepsAllBut s _⟩

end Sys2Proof.Machine
end

section
/-!
PROOFS. Logic, the flag-writing arithmetic, the shifts and the random byte (42_alu.md R113 to R123).
-/

namespace Sys2Proof.Machine

variable (s : State) (x y : Reg)

/-! ### Logic -/

/-- Settles O35: the operators on bytes work bit by bit; each instruction is one write of register `x`. -/
theorem logicWorksBitByBitAndLeavesVfAlone : Obligations.LogicWorksBitByBitAndLeavesVfAlone := by
  unfold Obligations.LogicWorksBitByBitAndLeavesVfAlone
  intro x y s
  refine ⟨⟨_, _, rfl, ?or, setReg_advance_effect s x _⟩, ⟨_, _, rfl, ?and, setReg_advance_effect s x _⟩,
    ⟨_, _, rfl, ?xor, setReg_advance_effect s x _⟩⟩
  case or => exact fun k _ => BitVec.getLsbD_or
  case and => exact fun k _ => BitVec.getLsbD_and
  case xor => exact fun k _ => BitVec.getLsbD_xor

/-! ### A result and a flag -/

theorem setResultAndFlag_writes (v : Byte) (f : Bool) :
    WritesRegAndFlag x v (flagValue f) s (s.setResultAndFlag x v f).advance := by
  refine ⟨?flag, fun hx => ?result, fun r hr hvf => ?others⟩ <;> rw [State.reg_advance, State.reg_setResultAndFlag]
  case flag => rw [if_pos rfl]
  case result => rw [if_neg hx, if_pos rfl]
  case others => rw [if_neg hvf, if_neg hr]

/-- All that an instruction does which writes a result and a flag that stands for the condition `p`. -/
theorem setResultAndFlag_effect (v : Byte) {f : Bool} {p : Prop} [Decidable p] (hf : f = decide p) :
    WritesRegAndFlag x v (if p then 1 else 0) s (s.setResultAndFlag x v f).advance ∧
      (s.setResultAndFlag x v f).advance.pc = s.pc + 2 ∧
      KeepsAllBut [.regs, .pc] s (s.setResultAndFlag x v f).advance := by
  have hflag : flagValue f = if p then 1 else 0 := by
    rw [hf]
    by_cases h : p <;> simp [flagValue, h]
  exact ⟨hflag ▸ setResultAndFlag_writes s x v f, rfl, (setResultAndFlag_keepsAllBut s x v f).advance⟩

/-- Settles O36: the sum of two bytes is taken modulo 256, and the flag is written after it. -/
theorem addSetsSumAndCarry : Obligations.AddSetsSumAndCarry := by
  unfold Obligations.AddSetsSumAndCarry
  exact fun x y s => ⟨_, _, rfl, BitVec.toNat_add _ _, setResultAndFlag_effect s x _ rfl⟩

/-- The difference of two bytes (R117, R119). -/
theorem sub_byte_toNat (a b : Byte) : (a - b).toNat = (256 + a.toNat - b.toNat) % 256 := by
  have := b.isLt
  rw [BitVec.toNat_sub]
  omega

/-- Settles O37: the two subtractions are one, with the operands exchanged. -/
theorem subtractSetsDifferenceAndNoBorrow : Obligations.SubtractSetsDifferenceAndNoBorrow := by
  unfold Obligations.SubtractSetsDifferenceAndNoBorrow
  intro x y s
  exact ⟨⟨_, _, rfl, sub_byte_toNat _ _, setResultAndFlag_effect s x _ rfl⟩,
    ⟨_, _, rfl, sub_byte_toNat _ _, setResultAndFlag_effect s x _ rfl⟩⟩

/-! ### Shifts -/

theorem shiftRight_byte_toNat (v : Byte) : (v >>> 1).toNat = v.toNat / 2 := by
  rw [BitVec.toNat_ushiftRight, Nat.shiftRight_one]

theorem shiftLeft_byte_toNat (v : Byte) : (v <<< 1).toNat = v.toNat * 2 % 256 := by
  rw [BitVec.toNat_shiftLeft, Nat.shiftLeft_eq]

theorem bitOutRight_eq (v : Byte) : bitOutRight v = decide (v.toNat % 2 = 1) := by
  rw [bitOutRight, BitVec.getLsbD, Nat.testBit_zero]

theorem bitOutLeft_eq (v : Byte) : bitOutLeft v = decide (128 ≤ v.toNat) :=
  (BitVec.msb_eq_getLsbD_last v).symm.trans (BitVec.msb_eq_decide v)

theorem shiftSource_vx (h : s.cfg.shiftSrc = .vx) : shiftSource s x y = s.reg x := by
  rw [shiftSource, h]

theorem shiftSource_vy (h : s.cfg.shiftSrc = .vy) : shiftSource s x y = s.reg y := by
  rw [shiftSource, h]

/-- Settles O38: both shifts take the source that the configuration names. -/
theorem shiftsSetResultAndBitOut : Obligations.ShiftsSetResultAndBitOut := by
  unfold Obligations.ShiftsSetResultAndBitOut
  intro x y s
  refine ⟨shiftSource s x y, shiftSource_vx s x y, shiftSource_vy s x y, ?right, ?left⟩
  case right => exact ⟨_, _, rfl, shiftRight_byte_toNat _, setResultAndFlag_effect s x _ (bitOutRight_eq _)⟩
  case left => exact ⟨_, _, rfl, shiftLeft_byte_toNat _, setResultAndFlag_effect s x _ (bitOutLeft_eq _)⟩

/-! ### The random byte -/

/-- Settles O39: the generator steps once, and the register takes the byte of that step under the mask. -/
theorem rndMasksOneByteOfTheGenerator : Obligations.RndMasksOneByteOfTheGenerator := by
  unfold Obligations.RndMasksOneByteOfTheGenerator
  intro x nn s
  refine ⟨_, rfl, rfl, ?writes, rfl, (exec_keepsAllBut (i := .rnd x nn) rfl).mono (by simp [changedParts])⟩
  case writes => exact setReg_advance_writesReg (s.setRng (Config.rngStep s.rng).1) x _

end Sys2Proof.Machine
end

section
/-!
PROOFS. The index register, the decimal digits, and what a store leaves for the next load and the next fetch
(43_index_memory.md R125 to R130, 20_memory.md section 5).
-/

namespace Sys2Proof.Machine

variable {s : State}

/-! ### The index register -/

theorem setIndex_advance_keepsAllBut (s : State) (a : Addr) : KeepsAllBut [.index, .pc] s (s.setIndex a).advance :=
  (setIndex_keepsAllBut s a).advance

/-- Settles O40: `FX1E` adds two 12-bit values, so modulo 4096. -/
theorem setAndAddToTheIndex : Obligations.SetAndAddToTheIndex := by
  unfold Obligations.SetAndAddToTheIndex
  intro nnn x s
  exact ⟨⟨_, rfl, rfl, rfl, setIndex_advance_keepsAllBut s _⟩,
    ⟨_, rfl, add_zext12_toNat s.I (s.reg x), rfl, setIndex_advance_keepsAllBut s _⟩⟩

theorem lowNibble_val (v : Byte) : (lowNibble v).val = v.toNat % 16 := by
  simp [lowNibble]

theorem glyphAddr_toNat (c : Cfg) (d : Reg) : (glyphAddr c d).toNat = (c.fontBase.toNat + 5 * d.val) % 4096 := by
  rw [glyphAddr, BitVec.toNat_add, BitVec.toNat_ofNat]
  omega

/-- Settles O41: the digit of a glyph is the low nibble of the register. -/
theorem fontPointsAtTheGlyph : Obligations.FontPointsAtTheGlyph := by
  unfold Obligations.FontPointsAtTheGlyph
  intro x s
  refine ⟨_, rfl, ?glyph, rfl, setIndex_advance_keepsAllBut s _⟩
  case glyph => exact (glyphAddr_toNat s.cfg _).trans (by rw [lowNibble_val])

/-! ### The decimal digits -/

theorem digit_toNat {n : Nat} (h : n < 256) : (BitVec.ofNat 8 n).toNat = n := by
  rw [BitVec.toNat_ofNat, Nat.mod_eq_of_lt h]

theorem hundredsDigit_toNat (v : Byte) : (hundredsDigit v).toNat = v.toNat / 100 := digit_toNat (by omega)

theorem tensDigit_toNat (v : Byte) : (tensDigit v).toNat = v.toNat / 10 % 10 := digit_toNat (by omega)

theorem onesDigit_toNat (v : Byte) : (onesDigit v).toNat = v.toNat % 10 := digit_toNat (by omega)

/-- Addresses at different distances from `I` differ, up to the size of memory. -/
theorem indexed_ne (s : State) {i j : Nat} (hi : i < 4096) (hj : j < 4096) (hne : i ≠ j) :
    indexed s i ≠ indexed s j := fun e =>
  hne (((eq_indexed_iff s hi).1 rfl).symm.trans ((eq_indexed_iff s hj).1 e))

/-- Memory after the three writes of `FX33`. -/
theorem readByte_threeWrites (h : Memory.wf s.cfg s.mem) (a₀ a₁ a₂ a : Addr) (b₀ b₁ b₂ : Byte) :
    (((s.writeByte a₀ b₀).writeByte a₁ b₁).writeByte a₂ b₂).readByte a =
      if a = a₂ then b₂ else if a = a₁ then b₁ else if a = a₀ then b₀ else s.readByte a := by
  have h₁ := State.wf_writeByte h a₀ b₀
  have h₂ := State.wf_writeByte h₁ a₁ b₁
  rw [State.readByte_writeByte h₂, State.readByte_writeByte h₁, State.readByte_writeByte h]

/-- Settles O42: the three addresses differ, so no write covers another. -/
theorem bcdStoresTheDecimalDigits : Obligations.BcdStoresTheDecimalDigits := by
  unfold Obligations.BcdStoresTheDecimalDigits
  intro x s hinv
  have h01 : indexed s 0 ≠ indexed s 1 := indexed_ne s (by decide) (by decide) (by decide)
  have h02 : indexed s 0 ≠ indexed s 2 := indexed_ne s (by decide) (by decide) (by decide)
  have h12 : indexed s 1 ≠ indexed s 2 := indexed_ne s (by decide) (by decide) (by decide)
  refine ⟨_, rfl, ?hundreds, ?tens, ?ones, fun a h0 h1 h2 => ?others, rfl,
    (bcdWrites_keepsAllBut s _ _ _ _ _ _).advance⟩ <;> rw [State.readByte_advance, readByte_threeWrites hinv.memory]
  case hundreds => rw [if_neg h02, if_neg h01, if_pos rfl, hundredsDigit_toNat]
  case tens => rw [if_neg h12, if_pos rfl, tensDigit_toNat]
  case ones => rw [if_pos rfl, onesDigit_toNat]
  case others => rw [if_neg h2, if_neg h1, if_neg h0]

/-! ### A store, then a load or a fetch -/

/-- Settles O45: the load reads the bytes from the unchanged `I` on, and a change of the registers is no change of
memory. -/
theorem loadBringsBackWhatStoreWrote : Obligations.LoadBringsBackWhatStoreWrote := by
  unfold Obligations.LoadBringsBackWhatStoreWrote
  intro x s between hinv
  obtain ⟨t, ht, hstored, -, -, hframe⟩ := storeWritesTheRegisterRun x s hinv
  obtain ⟨u, hu, hloaded, habove, -⟩ := loadReadsTheRegisterRun x { t with V := between }
  have hI : t.I = s.I := hframe .index (by decide)
  refine ⟨t, u, ht, hu, fun i hi => ?back, habove⟩
  case back =>
    calc u.reg i = t.readByte (t.I + BitVec.ofNat 12 i.val) := hloaded i hi
      _ = s.reg i := by rw [hI, hstored i hi]

/-- Settles O46: the store and the next fetch share one memory, and the two bytes stored first lie at the next `pc`. -/
theorem storedCodeIsWhatTheNextStepRuns : Obligations.StoredCodeIsWhatTheNextStepRuns := by
  unfold Obligations.StoredCodeIsWhatTheNextStepRuns
  intro x s i hinv hp hw hI hx hd
  obtain ⟨t, ht, hstored, -, hpc, hframe⟩ := storeWritesTheRegisterRun x s hinv
  have hpcI : t.pc = s.I := hpc.trans hI.symm
  have hfirst : t.readByte t.pc = s.reg 0 := by
    rw [hpcI, ← hstored 0 (Nat.zero_le _)]
    exact congrArg t.readByte (BitVec.add_zero s.I).symm
  have hsecond : t.readByte (t.pc + 1) = s.reg 1 := by
    rw [hpcI]
    exact hstored 1 hx
  have hword : fetch16 t t.pc = s.reg 0 ++ s.reg 1 := by rw [fetch16, wordOfBytes, hfirst, hsecond]
  exact ⟨t, ht, step_legal ((hframe .poisoned (by decide)).trans hp) ((hframe .wait (by decide)).trans hw)
    (hword ▸ hd)⟩

end Sys2Proof.Machine
end

section
/-!
PROOFS. The display instructions: clearing, one draw, and the same draw twice (44_display.md R136, R137;
95_test_vectors.md S4).
-/

namespace Sys2Proof.Machine

variable {s t : State}

/-- Settles O47: the cleared buffer has no lit pixel. -/
theorem clsClearsTheDisplay : Obligations.ClsClearsTheDisplay := by
  unfold Obligations.ClsClearsTheDisplay
  exact fun s => ⟨_, rfl, pixel_clearDisplay, rfl, rfl, exec_keepsAllBut (i := .cls) rfl⟩

/-! ### One draw -/

theorem exec_drw (x y : Reg) (n : Nat) (s : State) :
    exec (.drw x y n) s = .next (((s.setDisplay (drawSprite x y n s).fb).setReg vf
      (flagValue (drawSprite x y n s).collision)).setDispDirty true).advance := rfl

/-- `VF` after a draw is the collision flag. -/
theorem reg_vf_of_drw {x y : Reg} {n : Nat} (h : exec (.drw x y n) s = .next t) :
    t.reg vf = flagValue (drawSprite x y n s).collision := by
  cases h
  exact State.reg_setReg_self _ vf _

/-- Settles O48: the loops draw the sprite that `SpriteCovers` describes. -/
theorem drwInvertsExactlyTheCoveredPixels : Obligations.DrwInvertsExactlyTheCoveredPixels := by
  unfold Obligations.DrwInvertsExactlyTheCoveredPixels
  intro x y n s hn
  obtain ⟨hpixels, hcollision⟩ := drawSprite_spec s x y (show n ≤ 32 by omega)
  refine ⟨_, rfl, hpixels, fun hlit => ?collision, fun hdark => ?noCollision, fun r hr => ?others, rfl, rfl,
    exec_keepsAllBut (i := .drw x y n) rfl⟩
  case collision => rw [reg_vf_of_drw (exec_drw x y n s), hcollision.2 hlit]; rfl
  case noCollision =>
    have hnone : (drawSprite x y n s).collision = false := by
      rw [← Bool.not_eq_true, hcollision]
      rintro ⟨px, py, hcovers, hlit⟩
      rw [hdark px py hcovers] at hlit
      cases hlit
    rw [reg_vf_of_drw (exec_drw x y n s), hnone]
    rfl
  case others => exact State.reg_setReg_of_ne _ hr _

/-! ### The same draw twice -/

/-- Which pixels a sprite covers depends on memory, `I` and the position alone. -/
theorem spriteCovers_of_keepsAllBut {changed : List Part} (h : KeepsAllBut changed s t) (hmem : .mem ∉ changed)
    (hindex : .index ∉ changed) (x0 y0 : Byte) (n : Nat) (px : Fin 64) (py : Fin 32) :
    SpriteCovers t x0 y0 n px py ↔ SpriteCovers s x0 y0 n px py := by
  have hread : ∀ a, t.readByte a = s.readByte a := h .mem hmem
  have hI : t.I = s.I := h .index hindex
  simp only [SpriteCovers, indexed, hread, hI]

/-- Settles O49: the second draw is at the same place, since `VF` is neither position register and memory and `I` are
as before; it inverts the pixels that the first inverted. -/
theorem drawingTwiceRestoresTheDisplay : Obligations.DrawingTwiceRestoresTheDisplay := by
  unfold Obligations.DrawingTwiceRestoresTheDisplay
  intro x y n s hn hx hy
  obtain ⟨t, ht, htPixels, -, htDark, htOthers, -, -, hframe⟩ := drwInvertsExactlyTheCoveredPixels x y n s hn
  obtain ⟨u, hu, huPixels, huLit, -⟩ := drwInvertsExactlyTheCoveredPixels x y n t hn
  have hsame := spriteCovers_of_keepsAllBut hframe (by decide) (by decide) (s.reg x) (s.reg y) n
  simp only [htOthers x hx, htOthers y hy, hsame] at huPixels huLit
  refine ⟨t, u, ht, hu, fun px py => ?restored, fun hdark => ⟨htDark hdark, fun ⟨px, py, hcovers⟩ => ?lit⟩⟩
  case restored =>
    rw [Bool.eq_iff_iff, huPixels, htPixels]
    tauto
  case lit =>
    refine huLit ⟨px, py, hcovers, ?_⟩
    rw [htPixels, hdark px py hcovers]
    simp [hcovers]

end Sys2Proof.Machine
end

section
/-!
PROOFS. The key instructions and `set_keys` (45_keys_timers.md R145, R146, R148; 48_host_operations.md R164).
-/

namespace Sys2Proof.Machine

variable {s : State}

/-! ### The instructions -/

theorem keyPressed_eq (s : State) (x : Reg) : keyPressed s x = s.keys.getLsbD ((s.reg x).toNat % 16) := by
  rw [keyPressed, lowNibble_val]

/-- Settles O50: both skips look at the same bit of the latch. -/
theorem keySkipsReadTheLatch : Obligations.KeySkipsReadTheLatch := by
  unfold Obligations.KeySkipsReadTheLatch
  intro x s
  rw [← keyPressed_eq]
  exact ⟨⟨_, rfl, rfl, skipIf_keepsAllBut s _⟩, ⟨_, rfl, skipIf_not_pc s _, skipIf_keepsAllBut s _⟩⟩

/-- Settles O53: `FX0A` is a write of the wait and an advance. -/
theorem waitkEntersTheWait : Obligations.WaitkEntersTheWait := by
  unfold Obligations.WaitkEntersTheWait
  exact fun x s => ⟨_, exec_waitk x s, rfl, rfl, rfl, (setWait_keepsAllBut s _).advance⟩

/-! ### `set_keys` -/

theorem setKeys_keys (mask : KeyMask) (s : State) : (setKeys mask s).keys = mask := by
  obtain ⟨r, k, -, -, hset⟩ | ⟨-, hset⟩ := setKeys_cases mask s <;> rw [hset] <;> rfl

/-- Without a wait, or without a press, the latch alone is written. -/
theorem setKeys_keepsAllBut_keys {mask : KeyMask} (h : s.wait = none ∨ newlyPressed s mask = 0) :
    KeepsAllBut [.keys] s (setKeys mask s) := by
  have hset : setKeys mask s = s.setKeyLatch mask := h.elim (setKeys_of_not_waiting · mask) setKeys_of_no_press
  rw [hset]
  exact setKeyLatch_keepsAllBut s mask

theorem newlyPressed_bit (s : State) (mask : KeyMask) (j : Reg) :
    (newlyPressed s mask).getLsbD j.val = (mask.getLsbD j.val && !s.keys.getLsbD j.val) := by
  simp [newlyPressed]

/-- The lowest key of a mask is the one that is set with every lower one clear. -/
theorem lowestKey_eq_some {m : KeyMask} {k : Reg} (hk : m.getLsbD k.val = true)
    (hlow : ∀ j : Reg, j.val < k.val → m.getLsbD j.val = false) : lowestKey m = some k := by
  cases hm : lowestKey m with
  | none => simp [lowestKey_none.1 hm] at hk
  | some l =>
    obtain ⟨hl, hlowest⟩ := lowestKey_some hm
    obtain hlt | heq | hlt := Nat.lt_trichotomy l.val k.val
    · rw [hlow l hlt] at hl; cases hl
    · rw [Fin.ext heq]
    · rw [hlowest k hlt] at hk; cases hk

/-- A press while waiting writes the waiting register, the wait and the latch. -/
theorem setKeys_of_press {mask : KeyMask} {r k : Reg} (hw : s.wait = some r)
    (hk : lowestKey (newlyPressed s mask) = some k) :
    setKeys mask s = ((s.setReg r (BitVec.ofNat 8 k.val)).setWait none).setKeyLatch mask := by
  simp [setKeys, hw, hk]

theorem captured_keepsAllBut (s : State) (r : Reg) (v : Byte) (mask : KeyMask) :
    KeepsAllBut [.keys, .wait, .regs] s (((s.setReg r v).setWait none).setKeyLatch mask) :=
  ((setReg_keepsAllBut s r v).append
    ((setWait_keepsAllBut _ none).append (setKeyLatch_keepsAllBut _ mask))).mono (by decide)

/-- Settles O55: the key described is the lowest one of the mask of new presses. -/
theorem setKeysCapturesTheLowestPress : Obligations.SetKeysCapturesTheLowestPress := by
  unfold Obligations.SetKeysCapturesTheLowestPress
  intro mask s hp
  refine ⟨_, harmless_ready hp _, setKeys_keys mask s, setKeys_keepsAllBut_keys, fun r k hw hdown hup hbelow => ?press⟩
  case press =>
    have hlowest : lowestKey (newlyPressed s mask) = some k := by
      refine lowestKey_eq_some (by rw [newlyPressed_bit, hdown, hup]; rfl) fun j hj => ?_
      rw [newlyPressed_bit]
      cases hm : mask.getLsbD j.val with
      | false => rfl
      | true => rw [hbelow j hj hm]; rfl
    rw [setKeys_of_press hw hlowest]
    exact ⟨rfl, ⟨s.reg_setReg_self r _, fun q hq => s.reg_setReg_of_ne hq _⟩, captured_keepsAllBut s r _ mask⟩

end Sys2Proof.Machine
end

section
/-!
PROOFS. The overflow guard of the flag store, and the outputs whose meaning the spec decides (46_flag_store.md R157,
48_host_operations.md R171 to R174, 60_exceptions.md R180).
-/

namespace Sys2Proof.Machine

variable {s : State}

/-- Settles O56: the guard compares `x` with 7 before anything else. -/
theorem flagOverflowExactlyAboveSeven : Obligations.FlagOverflowExactlyAboveSeven := by
  unfold Obligations.FlagOverflowExactlyAboveSeven
  intro x s
  refine ⟨fun hx => ⟨exec_savef_of_gt hx s, exec_loadf_of_gt hx s⟩,
    fun hx => ⟨⟨_, exec_savef_of_le hx s⟩, ⟨_, exec_loadf_of_le hx s⟩⟩, fun hx hp hw hd => stepResponse_fault ?step⟩
  case step =>
    obtain hd | hd := hd
    · exact (step_legal hp hw hd).trans (exec_savef_of_gt hx s)
    · exact (step_legal hp hw hd).trans (exec_loadf_of_gt hx s)

/-! ### `flags_q` -/

theorem flagsQ_be (h : s.cfg.flagsReadOrder = .be) : flagsQ s = packLittleEndian fun i => s.flagByte i.rev := by
  rw [flagsQ, h]

theorem flagsQ_le (h : s.cfg.flagsReadOrder = .le) : flagsQ s = packLittleEndian s.flagByte := by
  rw [flagsQ, h]

/-- With `BE`, flag byte `k` is byte `7 - k` of the packed value (R171). -/
theorem flagsQ_be_byte (h : s.cfg.flagsReadOrder = .be) (k : Fin 8) :
    (flagsQ s).extractLsb' (56 - 8 * k.val) 8 = s.flagByte k := by
  have hplace : 56 - 8 * k.val = 8 * k.rev.val := by
    rw [Fin.val_rev]
    omega
  rw [flagsQ_be h, hplace, packLittleEndian_byte, Fin.rev_rev]

theorem flagsQ_le_byte (h : s.cfg.flagsReadOrder = .le) (k : Fin 8) :
    (flagsQ s).extractLsb' (8 * k.val) 8 = s.flagByte k := by
  rw [flagsQ_le h, packLittleEndian_byte]

/-- With `LE`, the packed value is the one `init` unpacked. -/
theorem flagsQ_initialState {c : Cfg} (h : c.flagsReadOrder = .le) (seed : Seed) (f : PackedFlags)
    (program : List Byte) : flagsQ (initialState c seed f program) = f := by
  have hbytes : (initialState c seed f program).flagByte = fun i => f.extractLsb' (8 * i.val) 8 :=
    funext (flagByte_unpackFlags (initialState c seed f program) f)
  rw [flagsQ_le (s := initialState c seed f program) h, hbytes, packLittleEndian_unpack]

theorem soundOn_iff (s : State) : soundOn s = true ↔ s.ST ≠ 0 := bne_iff_ne

/-- Settles O60: the packed value is read byte by byte; the fetched word, the sound output and the default error
numbers are as defined. -/
theorem outputsTheSpecDecides : Obligations.OutputsTheSpecDecides := by
  unfold Obligations.OutputsTheSpecDecides
  refine ⟨fun s k h => flagsQ_be_byte h k, fun s k h => flagsQ_le_byte h k, fun s program seed f hlen hle => ?unpacked,
    fun s hp => ⟨_, observe_ready hp, rfl, rfl, soundOn_iff s⟩, by decide⟩
  case unpacked =>
    rw [init_fits hlen]
    exact flagsQ_initialState hle seed f program

end Sys2Proof.Machine
end
